-- ==== Sys2Proof/Word.lean ====
section
/-! DEFINITION. The word types of the links and of the store: a byte, and the two-byte field sent least significant byte
first (spec/08, R172). -/

namespace Sys2Proof

/-- One byte of a frame, of the phrase store or of a glyph row. -/
abbrev Byte := BitVec 8

/-- A two-byte field (R172). -/
abbrev Word16 := BitVec 16

/-- The low byte of a two-byte field, sent first (R172). -/
def lowByte (w : Word16) : Byte := w.setWidth 8

/-- The high byte of a two-byte field, sent second (R172). -/
def highByte (w : Word16) : Byte := (w >>> 8).setWidth 8

/-- The two bytes of a field in the order they are sent (R172). -/
def bytesOf (w : Word16) : List Byte := [lowByte w, highByte w]

/-- A two-byte field from its bytes, the low byte first (R172). -/
def wordOf (lo hi : Byte) : Word16 := hi.setWidth 16 <<< 8 ||| lo.setWidth 16

/-- The low byte of a natural number. -/
def byteOf (n : Nat) : Byte := BitVec.ofNat 8 n

/-- The low two bytes of a natural number, in the order they are sent. -/
def wordBytes (n : Nat) : List Byte := bytesOf (BitVec.ofNat 16 n)

end Sys2Proof
end

