-- ==== Sys2Proof/Syntax.lean ====
section
/-! DEFINITION. The names the spec uses, the raw bodies of the requests (spec/08 R173, R174) and the commands of the part:
one constructor of Instr for each row of spec/opcode_table.json. A request's fields are the bytes the frame carries, so
every value a client can send can be written, in range or not. -/

namespace Sys2Proof

/-- The two halves of the panel (00 "Terms"). -/
inductive Side | lower | upper
  deriving DecidableEq, Repr

/-- The four client ports (00 "Terms"). -/
inductive Port | a | b | c | d
  deriving DecidableEq, Repr

/-- The roles of R164. -/
inductive Role | lowerDrum | upperDrum | payment | room
  deriving DecidableEq, Repr

/-- The seven keys of a side (R75). -/
inductive Key | start | stop | option | yes | no | help | speech
  deriving DecidableEq, Repr

/-- An element of a span or of a line as it is sent: a kind code and a two-byte parameter (R173). -/
structure RawElem where
  kind : Byte
  param : Word16
  deriving DecidableEq, Repr

/-- A page record as it is sent (R173). The counts are the lengths of the lists. -/
structure RawPage where
  icons : Word16
  blink : Word16
  lines : List (List RawElem)
  deriving DecidableEq, Repr

/-- The body of POST PROMPT (R173). A field whose presence bit is clear is `none`; its bytes are not examined. -/
structure PromptBody where
  tag : Byte
  cls : Byte
  urgency : Byte
  side : Byte
  page : Option RawPage
  tone : Option Byte
  expiry : Option Word16
  repeats : Option (Byte × Byte)
  dwell : Option Byte
  holdToAnswer : Bool
  wake : Bool
  replace : Bool
  responseSet : Byte
  span : List RawElem
  deriving DecidableEq, Repr

/-- The configuration record as it is sent, 19 bytes (R174). -/
structure ConfigBody where
  language : Byte
  mode : Byte
  volume : Byte
  level0 : Byte
  level1 : Byte
  level2 : Byte
  level3 : Byte
  idle : Word16
  lapse : Word16
  panelOff : Word16
  quotaLower : Byte
  quotaUpper : Byte
  quotaPayment : Byte
  quotaRoom : Byte
  lockOnFault : Byte
  fairTurn : Byte
  deriving DecidableEq, Repr

/-- The requests of the table of R174 with the raw fields of their bodies. -/
inductive Request
  | bindRole (role : Byte)
  | unbindRole
  | clientReset
  | readIdentity
  | fetchNotice
  | setAttentionMask (mask : Word16)
  | postPrompt (body : PromptBody)
  | withdrawPrompt (tag : Byte)
  | queryPrompt (tag : Byte)
  | listPrompts (slot : Byte)
  | startSession (side : Byte)
  | endSession (side : Byte)
  | setLanguage (side language : Byte)
  | setSpeechMode (side mode : Byte)
  | claimSide (side : Byte)
  | releaseSide (side : Byte)
  | setCycle (side presence phase : Byte) (countdown : Word16) (run : Byte)
  | readCycle (side : Byte)
  | writePage (page offset : Word16) (length : Byte) (data : List Byte)
  | readPage (page offset : Word16) (length : Byte)
  | readPostError
  | setWindow (target window flags : Byte) (first last offset : Word16)
  | setPhrase (phrase language flags : Byte) (first : Word16) (blocks : Byte)
  | readPhrase (phrase language : Byte)
  | setConfig (body : ConfigBody)
  | readConfig
  | setTone (pattern count : Byte) (notes : List (Byte × Byte))
  | setGlyph (code : Byte) (rows : List Byte)
  | setSegmentMap (entries : List Byte)
  | enterService
  | leaveService
  | lampTest (lamp blank : Byte)
  | selfTest (test : Byte) (a b : Word16)
  | readTestResult
  | audition (phrase language : Byte)
  | restoreSpeech
  deriving DecidableEq, Repr

/-- The commands of the part, in the order of spec/opcode_table.json. `p` is the port, `q` the sequence byte of a request. -/
inductive Instr
  | powerOnReset
  | externalReset
  | ignoreTimeEnd
  | requestFrame (p : Port) (body : List Byte) (crc : Word16)
  | gapTimerExpiry (p : Port)
  | frameTransmitted (p : Port)
  | bindRole (p : Port) (q : Byte) (role : Byte)
  | unbindRole (p : Port) (q : Byte)
  | clientReset (p : Port) (q : Byte)
  | readIdentity (p : Port) (q : Byte)
  | fetchNotice (p : Port) (q : Byte)
  | setAttentionMask (p : Port) (q : Byte) (mask : Word16)
  | postPrompt (p : Port) (q : Byte) (body : PromptBody)
  | withdrawPrompt (p : Port) (q : Byte) (tag : Byte)
  | queryPrompt (p : Port) (q : Byte) (tag : Byte)
  | listPrompts (p : Port) (q : Byte) (slot : Byte)
  | startSession (p : Port) (q : Byte) (side : Byte)
  | endSession (p : Port) (q : Byte) (side : Byte)
  | setLanguage (p : Port) (q : Byte) (side language : Byte)
  | setSpeechMode (p : Port) (q : Byte) (side mode : Byte)
  | claimSide (p : Port) (q : Byte) (side : Byte)
  | releaseSide (p : Port) (q : Byte) (side : Byte)
  | setCycle (p : Port) (q : Byte) (side presence phase : Byte) (countdown : Word16) (run : Byte)
  | readCycle (p : Port) (q : Byte) (side : Byte)
  | writePage (p : Port) (q : Byte) (page offset : Word16) (length : Byte) (data : List Byte)
  | readPage (p : Port) (q : Byte) (page offset : Word16) (length : Byte)
  | readPostError (p : Port) (q : Byte)
  | setWindow (p : Port) (q : Byte) (target window flags : Byte) (first last offset : Word16)
  | setPhrase (p : Port) (q : Byte) (phrase language flags : Byte) (first : Word16) (blocks : Byte)
  | readPhrase (p : Port) (q : Byte) (phrase language : Byte)
  | setConfig (p : Port) (q : Byte) (body : ConfigBody)
  | readConfig (p : Port) (q : Byte)
  | setTone (p : Port) (q : Byte) (pattern count : Byte) (notes : List (Byte × Byte))
  | setGlyph (p : Port) (q : Byte) (code : Byte) (rows : List Byte)
  | setSegmentMap (p : Port) (q : Byte) (entries : List Byte)
  | enterService (p : Port) (q : Byte)
  | leaveService (p : Port) (q : Byte)
  | lampTest (p : Port) (q : Byte) (lamp blank : Byte)
  | storeSum (p : Port) (q : Byte) (a b : Word16)
  | speechCheck (p : Port) (q : Byte) (a b : Word16)
  | directoryCheck (p : Port) (q : Byte) (a b : Word16)
  | keyCheck (p : Port) (q : Byte) (a b : Word16)
  | keyCheckEnd
  | readTestResult (p : Port) (q : Byte)
  | audition (p : Port) (q : Byte) (phrase language : Byte)
  | restoreSpeech (p : Port) (q : Byte)
  | keyContactChange (side : Side) (key : Key) (closed : Bool)
  | makeConfirmed (side : Side) (key : Key)
  | press (side : Side) (key : Key)
  | hold (side : Side) (key : Key)
  | knobPhaseChange (side : Side) (pClosed qClosed : Bool)
  | promptExpiry (slot : Nat)
  | dwellExpiry (slot : Nat)
  | repeatDue (slot : Nat)
  | idleExpiry (side : Side)
  | holdLapse (side : Side)
  | countdownFall (side : Side)
  | fallbackDue (side : Side)
  | panelOff
  | settlingEnd
  | recoveryEnd
  | displayRefresh
  | blinkHalf
  | toneNoteEnd
  | busGrant
  | transferEnd
  | blockEnd
  | pausePieceEnd
  | byteTaken (p : Port) (byte : Byte) (stopBit : Bool)
  | breakConfirmed (side : Side) (key : Key)
  deriving DecidableEq, Repr

end Sys2Proof
end

