-- ==== Sys2Proof/Decode.lean ====
section
/-! DEFINITION. The decoder over the rows of spec/opcode_table.json that give bits. The table of this block gives bits to no
row (spec/98_reader.md counts 0 rows with fixed bits and 0 with fields), so no word spells a command (log 32). How the bytes
of a request frame spell a request is R172 to R174 and stands in Machine/Operands.lean. -/

namespace Sys2Proof

/-- The command that an instruction word spells by the table's bits: none, because no row gives bits. -/
def decodeTableWord (_nbits _w : Nat) : Option Instr := none

end Sys2Proof
end

