-- ==== Sys2Proof/Config.lean ====
section
/-! DEFINITION. What the spec fixes for every part (sizes, times in steps of the 10 ms time base, identity codes), and the
FREE VALUES: what it leaves open. A free value is an opaque constant: nothing can be proved about the value it takes. -/

namespace Sys2Proof.Config

/-- Prompt table slots (R12). -/
def slotCount : Nat := 48
/-- Store pages (R91). -/
def pageCount : Nat := 512
/-- Bytes of a store page (R91). -/
def pageBytes : Nat := 512
/-- Bytes of a store slot (R91). -/
def slotBytes : Nat := 64
/-- Store slots of a page (R91). -/
def slotsPerPage : Nat := 8
/-- The greatest countdown, in seconds (R68). -/
def maxCountdown : Nat := 35999
/-- Places of a notice queue (R167). -/
def noticePlaces : Nat := 16
/-- Transmit places that take BUSY and FRAME_ERROR responses (R160). -/
def refusalPlaces : Nat := 3
/-- Page copies of the prefetch list (R113). -/
def prefetchPlaces : Nat := 4
/-- Steps of the 10 ms time base in one second. -/
def ticksPerSecond : Nat := 100
/-- The 30 ms of a make or a break, in steps (R75). -/
def debounceTicks : Nat := 3
/-- The 1.5 s of a HOLD, in steps (R76). -/
def holdTicks : Nat := 150
/-- The 20 ms of the gap timer, in steps (R157). -/
def gapTicks : Nat := 2
/-- The 5 s of the unbound timer, in steps (R37). -/
def unboundTicks : Nat := 500
/-- The 100 ms of the settling timer, in steps (R152). -/
def settlingTicks : Nat := 10
/-- The 200 ms of the recovery timer, in steps (R132). -/
def recoveryTicks : Nat := 20
/-- Half a blink period of 250 ms, in steps (R151). -/
def blinkTicks : Nat := 25
/-- Link ignore time after a power-on reset, in ms (R171). -/
def ignorePowerOn : Nat := 20
/-- Link ignore time after an external reset, in ms (R171). -/
def ignoreExternal : Nat := 2
/-- Vendor code (R170). -/
def vendor : Byte := 0x43
/-- Part code (R170). -/
def part : Byte := 0x2A
/-- Silicon revision (R170). -/
def revision : Byte := 1
/-- Further attenuation of speech under a tone, in steps of 2 dB (R137). -/
def duckSteps : Nat := 6
/-- The attenuation that mutes (R136). -/
def muteSteps : Nat := 31

/-- FREE VALUE (R117; log 7): of a write cut by an external reset, whether a byte holds the value the write carried. -/
opaque cutTakesNew : Nat → Bool
/-- FREE VALUE (R172 to R174; log 8): the bytes of a response that the layout leaves unstated. -/
opaque unstatedByte : Nat → Byte
/-- FREE VALUE (R147; log 9): row `r` of the built-in pattern of a glyph code of the fallback page that is not blank. -/
opaque builtinRow : Byte → Nat → Byte
/-- FREE VALUE (R136, R137; log 28): whether a sample that an attenuation of so many steps leaves between two values takes the one of
greater magnitude. -/
opaque roundsAway : Nat → Int → Bool
/-- FREE VALUE (R138; log 28): the sample of a tone of a frequency in Hz at a sample number. -/
opaque toneSample : Nat → Nat → Int
/-- FREE VALUE (R137; log 28): how far the output's range goes below silence. -/
opaque outputBelow : Nat
/-- FREE VALUE (R137; log 28): how far the output's range goes above silence. -/
opaque outputAbove : Nat

end Sys2Proof.Config
end

