-- ==== Sys2Proof/Machine/State.lean ====
section
/-! DEFINITION. Every piece of state the spec gives the part, as plain data, block by block (spec/00 "The part at a glance"),
the machine right after reset, and the ways a step can stop. Times are held in steps of the 10 ms time base unless a
field says otherwise. Values the spec keeps in two places have one home here and are computed for the other (log 13). -/

namespace Sys2Proof.Machine

/-- One value for each side of the panel. -/
structure PerSide (α : Type) where
  lower : α
  upper : α
  deriving DecidableEq, Repr

/-- One value for each client port. -/
structure PerPort (α : Type) where
  a : α
  b : α
  c : α
  d : α
  deriving DecidableEq, Repr

/-! ### Names -/

/-- Prompt classes (R29 gives their order). -/
inductive PClass | safety | fault | action | confirm | info | status
  deriving DecidableEq, Repr

/-- The states in which a prompt is granted; they are the resume states of R19. -/
inductive Active | presenting | awaiting | dwelling | standing | acknowledged
  deriving DecidableEq, Repr

/-- The prompt states of 1.4. HELD carries its resume state, which exists exactly then (R19). -/
inductive PState
  | queued
  | granted (a : Active)
  | held (resume : Active)
  deriving DecidableEq, Repr

/-- Speech modes (R52). -/
inductive SpeechMode | on | assist | off
  deriving DecidableEq, Repr

/-- Cycle phases (R68). -/
inductive Phase | idle | fill | wash | rinse | spin | dry | cool | done | fault
  deriving DecidableEq, Repr

/-- The key a key event names (R77). -/
inductive EventKey
  | key (k : Key)
  | knob
  deriving DecidableEq, Repr

/-- The kind of a key event (R76, R77). -/
inductive EventKind | press | hold | cw | ccw
  deriving DecidableEq, Repr

/-- Response statuses (R174). -/
inductive Status
  | ok | frameError | unknownRequest | badField | busy | notBound | portBound | roleTaken | notPermitted | tagLive
  | noSuchTag | quota | tableFull | sideAsleep | notHolder | noWindow | noRead | noWrite | pagePinned | serviceOnly
  | testResultPending | empty
  deriving DecidableEq, Repr

/-- Notice kinds (R173). -/
inductive NoticeKind
  | closed | answered | key | phase | countdownZero | session | holdLapsed | postFault | phraseFault | speechState
  | testDone | overrun
  deriving DecidableEq, Repr

/-- A notice (8.6). -/
structure Notice where
  kind : NoticeKind
  side : Option Side
  tag : Option Byte
  detail1 : Byte
  detail2 : Word16
  test : Bool
  deriving DecidableEq, Repr

/-! ### Link Unit -/

/-- The receive state of a port with the bytes collected so far (R157). -/
inductive Receive
  | ignore
  | hunt
  | length
  | body (length : Nat) (got : List Byte)
  | check (body : List Byte) (low : Option Byte)
  deriving DecidableEq, Repr

/-- A response frame (R159, R172). `kept` marks the one that holds the kept place (R160). -/
structure Frame where
  code : Byte
  seq : Byte
  status : Status
  body : List Byte
  kept : Bool
  deriving DecidableEq, Repr

/-- What a request in work waits for (R161, R108, R160). -/
inductive Work
  /-- READ PAGE on a physical page; `waiting` while it waits for the port's own buffered write (R108). -/
  | read (page offset length : Nat) (waiting : Bool)
  /-- An accepted direct write on a physical page (R105). -/
  | write (page offset : Nat) (data : List Byte)
  /-- A WRITE PAGE held behind the port's buffered write: client page, offset, data (R108). -/
  | heldWrite (page offset : Nat) (data : List Byte)
  /-- SELF TEST until its first store transfer is granted (R181). -/
  | testStart
  /-- The response is ready and waits for the kept place (R160). -/
  | response (frame : Frame)
  deriving DecidableEq, Repr

/-- A request in work: its code and sequence byte, and what it waits for. -/
structure InWork where
  code : Byte
  seq : Byte
  work : Work
  deriving DecidableEq, Repr

/-- What the block that owns a request hands back: a response, or what the request now waits for (R161, R162). -/
inductive Reply
  | answer (status : Status) (body : List Byte)
  | wait (work : Work)
  deriving DecidableEq, Repr

/-- The link state of one port (R156). `gapLate` is the model's own: an end of the gap timer that does not come (log 36). -/
structure PortLink where
  role : Option Role
  receive : Receive
  gap : Nat
  inWork : Option InWork
  transmit : List Frame
  gapLate : Bool
  deriving DecidableEq, Repr

/-- The notice queue of one port, its attention mask (bit `k - 1` for kind code `k`) and its ATTN line (R156, R167, R169). -/
structure NoticeQueue where
  notices : List Notice
  mask : BitVec 12
  attn : Bool
  deriving DecidableEq, Repr

/-! ### Configuration record (R175) -/

/-- The four entries of the volume level table (R136). -/
structure Levels where
  l0 : Nat
  l1 : Nat
  l2 : Nat
  l3 : Nat
  deriving DecidableEq, Repr

/-- The configuration record (R175); times in seconds. -/
structure Configuration where
  language : Fin 4
  mode : SpeechMode
  volume : Fin 4
  levels : Levels
  idleTimeout : Nat
  holdLapse : Nat
  panelOff : Nat
  quotaLower : Nat
  quotaUpper : Nat
  quotaPayment : Nat
  quotaRoom : Nat
  lockOnFault : Bool
  fairTurn : Bool
  deriving DecidableEq, Repr

/-! ### Prompt Table -/

/-- A span element (R3); a PAUSE in ms. -/
inductive SpanElem
  | phrase (n : Nat)
  | number (v : Nat)
  | countdown
  | pause (ms : Nat)
  deriving DecidableEq, Repr

/-- A line element (R4). -/
inductive LineElem
  | text (n : Nat)
  | number (v : Nat)
  | countdown
  | blank
  deriving DecidableEq, Repr

/-- A page record (R4): one or two lines, icon mask and blink mask. -/
structure PageRecord where
  lines : List (List LineElem)
  icons : Word16
  blink : Word16
  deriving DecidableEq, Repr

/-- A live prompt (R1). -/
structure Prompt where
  owner : Port
  tag : Byte
  cls : PClass
  urgency : Nat
  side : Side
  span : List SpanElem
  page : Option PageRecord
  tone : Option Nat
  /-- Bits 0 to 4: START, STOP, OPTION, YES, NO (R173). -/
  responseSet : BitVec 5
  holdToAnswer : Bool
  expiry : Option Nat
  repeatCount : Nat
  repeatInterval : Nat
  dwell : Nat
  wake : Bool
  state : PState
  elemIndex : Nat
  latch : Option Nat
  spokenOnce : Bool
  /-- Whether a turn of this prompt has held the channel (R120). -/
  hasSpoken : Bool
  repeatsLeft : Nat
  expiryLeft : Option Nat
  dwellLeft : Nat
  /-- The repeat timer: stopped, or the time remaining (R17). -/
  repeatTimer : Option Nat
  /-- A repeat has fallen due and has not started (R17). -/
  repeatDue : Bool
  /-- A repeat has started and has not been delivered (R39). -/
  repeatStarted : Bool
  seq : Word16
  slot : Nat
  deriving DecidableEq, Repr

/-- The outcomes with which a prompt closes (R24); an answer with its key and whether its kind is HOLD. -/
inductive Closing
  | answered (key : Key) (hold : Bool)
  | done | expired | withdrawn | replaced | unanswered
  deriving DecidableEq, Repr

/-- The Prompt Table: the live prompts in posting order, oldest first (R12, R13; log 13), and the posting counter (R2). -/
structure PromptTable where
  prompts : List Prompt
  counter : Word16
  deriving DecidableEq, Repr

/-! ### Presentation Scheduler (R28) -/

/-- Turn kinds (R39). -/
inductive TurnKind | first | again | replay
  deriving DecidableEq, Repr

/-- A speech turn: a prompt, by its slot, and the turn kind; or an audition (R28). -/
inductive Turn
  | prompt (slot : Nat) (kind : TurnKind)
  | audition
  deriving DecidableEq, Repr

/-- An ending that waits for the end of the current element (R46): the speaker lost its region or eligibility, or its span
counts as delivered there. -/
inductive Ending | lost | delivered
  deriving DecidableEq, Repr

/-- A pending replay: the prompt's slot, whether it has been granted, and the further-replay mark (R48). -/
structure Replay where
  slot : Nat
  started : Bool
  further : Bool
  deriving DecidableEq, Repr

/-- An unbound timer (R37). -/
structure UnboundTimer where
  count : Nat
  running : Bool
  deriving DecidableEq, Repr

/-- The Scheduler's record of one side. -/
structure SideSchedule where
  owner : Option Nat
  lastOwner : Option Port
  fallbackDue : Bool
  unbound : UnboundTimer
  replay : Option Replay
  deriving DecidableEq, Repr

/-- The Presentation Scheduler. `safetyCut` is a SAFETY preemption waiting for the end of the block in play (R45). -/
structure Scheduler where
  sides : PerSide SideSchedule
  turn : Option Turn
  preempt : Bool
  safetyCut : Bool
  ending : Option Ending
  lastChannel : Option Port
  deriving DecidableEq, Repr

/-! ### Side Control Unit -/

/-- A timer that counts up to a limit taken at its start: elapsed steps, limit in seconds (R52, R63, R152). -/
structure Counting where
  elapsed : Nat
  limit : Nat
  deriving DecidableEq, Repr

/-- Session record (R52). The idle timer is frozen while the service flag is set (R56). -/
structure Session where
  active : Bool
  language : Fin 4
  mode : SpeechMode
  volume : Fin 4
  idle : Option Counting
  deriving DecidableEq, Repr

/-- Why a session ended (R57). -/
inductive EndCause | idle | request
  deriving DecidableEq, Repr

/-- Hold record (R63). The lapse timer is frozen while the service flag is set (R66). -/
structure HoldRecord where
  holder : Option Port
  lapse : Option Counting
  deriving DecidableEq, Repr

/-- Cycle record (R68). `second` is the part of the current second, while the second timer runs. -/
structure Cycle where
  phase : Phase
  countdown : Nat
  running : Bool
  second : Option Nat
  deriving DecidableEq, Repr

/-- Ends of a side's timers that will not come: the timer stood at its end when a command taken in the same moment restarted or stopped
it (R37, R56, R58, R64 to R67, R70, R74). The model's own field (log 36). -/
structure Overtaken where
  idle : Bool
  lapse : Bool
  second : Bool
  unbound : Bool
  deriving DecidableEq, Repr

/-- The three records of one side. -/
structure SideRecords where
  session : Session
  hold : HoldRecord
  cycle : Cycle
  deriving DecidableEq, Repr

/-! ### Key Scanner -/

/-- Contact states (R75); MAKING and BREAKING with the steps seen so far. -/
inductive ContactState
  | idle
  | making (count : Nat)
  | down
  | breaking (count : Nat)
  deriving DecidableEq, Repr

/-- One key: its contact (input pin), contact state, held time and spent mark (R75). `makeLate` and `breakLate` are the model's own: ends of
MAKING and of BREAKING that do not come (log 36). -/
structure KeyRecord where
  closed : Bool
  state : ContactState
  held : Nat
  spent : Bool
  makeLate : Bool
  breakLate : Bool
  deriving DecidableEq, Repr

/-- The seven keys of a side. -/
structure KeyBank where
  start : KeyRecord
  stop : KeyRecord
  option : KeyRecord
  yes : KeyRecord
  no : KeyRecord
  help : KeyRecord
  speech : KeyRecord
  deriving DecidableEq, Repr

/-- Knob positions (R77). -/
inductive KnobPos | rest | a | b | c
  deriving DecidableEq, Repr

/-- One knob: its phase contacts as last taken, the leaving position and the seeking flag (R77). -/
structure Knob where
  p : Bool
  q : Bool
  leaving : Option KnobPos
  seeking : Bool
  deriving DecidableEq, Repr

/-- Keys and knob of one side. -/
structure SideKeys where
  keys : KeyBank
  knob : Knob
  deriving DecidableEq, Repr

/-- The Key Scanner. -/
structure Scanner where
  scanning : Bool
  sides : PerSide SideKeys
  deriving DecidableEq, Repr

/-! ### Phrase Store Controller -/

/-- The phrase store: cells in one canonical form, keyed by 512 x page + offset (R91). -/
abbrev Memory := List Host.Cell

/-- A directory entry (R95). -/
structure DirEntry where
  present : Bool
  first : Nat
  blocks : Nat
  text : Bool
  deriving DecidableEq, Repr

/-- The directory: entries that are not as after power-on, keyed by 4 x phrase + language (R95). -/
abbrev Directory := List (Nat × DirEntry)

/-- A store window (R100). -/
structure Window where
  enabled : Bool
  first : Nat
  last : Nat
  offset : Nat
  read : Bool
  write : Bool
  posted : Bool
  deriving DecidableEq, Repr

/-- The two windows of a port. -/
structure Windows where
  w0 : Window
  w1 : Window
  deriving DecidableEq, Repr

/-- The condition of a buffered write (R106). -/
inductive PostCond
  | claiming
  | pinWait
  | underWay
  deriving DecidableEq, Repr

/-- A posted-write buffer that holds a write (R106). `pendingOn` is the page it is a pending write on (R112). -/
structure Posted where
  page : Nat
  offset : Nat
  data : List Byte
  cond : PostCond
  pendingOn : Option Nat
  deriving DecidableEq, Repr

/-- The cause of a failed posted write (R108). -/
inductive PostCause | noWindow | noWrite
  deriving DecidableEq, Repr

/-- A post error record that holds a fault (R108). -/
structure PostError where
  cause : PostCause
  page : Nat
  offset : Nat
  deriving DecidableEq, Repr

/-- A resolution of a phrase (R97). -/
structure Resolution where
  phrase : Nat
  language : Fin 4
  first : Nat
  blocks : Nat
  text : Bool
  deriving DecidableEq, Repr

/-- The transfer under way on the store bus (R110). -/
inductive Transfer
  /-- The Speech Engine fetches a store slot of a page under a resolution (R126). -/
  | speech (page slot : Nat) (res : Resolution)
  /-- The Display Controller reads the text slot of a page; `dropped` when its render was abandoned (R143). -/
  | display (side : Side) (page : Nat) (dropped : Bool)
  /-- A port's READ PAGE (R104). -/
  | read (p : Port) (page offset length : Nat)
  /-- A port's direct write (R105). -/
  | write (p : Port) (page offset : Nat) (data : List Byte)
  /-- A port's buffered write on the page it was translated to (R107). -/
  | posted (p : Port) (page offset : Nat) (data : List Byte)
  /-- The Service and Test Unit reads a store slot; `dropped` when its test was aborted (R178). -/
  | test (page slot : Nat) (dropped : Bool)
  deriving DecidableEq, Repr

/-- The state of the PSC that belongs to one port. -/
structure PortStore where
  windows : Windows
  posted : Option Posted
  error : Option PostError
  deriving DecidableEq, Repr

/-- The Phrase Store Controller. -/
structure PhraseStore where
  memory : Memory
  directory : Directory
  ports : PerPort PortStore
  transfer : Option Transfer
  lastServed : Option Port
  deriving DecidableEq, Repr

/-! ### Speech Engine -/

/-- Channel states (R119). -/
inductive Channel | idle | speaking | recovering | silenced
  deriving DecidableEq, Repr

/-- A word of the element in play: the phrase number and its resolution, or none for MISSING (R122, R123). -/
structure SpokenWord where
  phrase : Nat
  res : Option Resolution
  deriving DecidableEq, Repr

/-- Where an element stands: its word is to be begun, a block is to be begun, a block is playing, or so many ms of a pause are
left (R121 to R127). -/
inductive Playing
  | word
  | ready (block : Nat)
  | block (block : Nat)
  | pause (left : Nat)
  deriving DecidableEq, Repr

/-- The element in play (R118): its words, the words still to be begun or in play (the head is the one in play), the place, the
attenuation chosen at its start (R136), the decoder and the samples of the block in play (R128). -/
structure ElementInPlay where
  words : List SpokenWord
  rest : List SpokenWord
  at_ : Playing
  level : Nat
  sample : Int
  stepIndex : Nat
  samples : List Int
  deriving DecidableEq, Repr

/-- A page copy of the prefetch list (R113): page, resolution, the slots fetched, and whether its decoding was finished. -/
structure PageCopy where
  page : Nat
  res : Resolution
  slots : List (Nat × List Byte)
  finished : Bool
  deriving DecidableEq, Repr

/-- The Speech Engine (R118). The turn in play is the Scheduler's speech turn. -/
structure SpeechEngine where
  channel : Channel
  element : Option ElementInPlay
  recovery : Option Nat
  faults : Nat
  resets : Nat
  prefetch : List PageCopy
  pin : Option Nat
  deriving DecidableEq, Repr

/-! ### Tone Generator -/

/-- A note: frequency code and duration in steps (R138). -/
structure Note where
  code : Nat
  steps : Nat
  deriving DecidableEq, Repr

/-- Where a tone request comes from (R139). -/
inductive Origin
  | prompt (cls : PClass)
  | click
  | reject
  deriving DecidableEq, Repr

/-- The current tone (R139): the notes from the one in play on, its origin, side and level, and the time left in the note. -/
structure Tone where
  notes : List Note
  origin : Origin
  side : Side
  level : Nat
  left : Nat
  deriving DecidableEq, Repr

/-- The Tone Generator: the patterns that are not empty, keyed by number (R138), and the current tone. `noteLate` is the model's own: the end
of a note that does not come (log 36). -/
structure ToneGenerator where
  patterns : List (Nat × List Note)
  current : Option Tone
  noteLate : Bool
  deriving DecidableEq, Repr

/-! ### Display Controller -/

/-- Region content (R142). -/
inductive Content
  | empty
  | prompt (slot : Nat) (page : PageRecord)
  | fallback
  deriving DecidableEq, Repr

/-- A glyph string of a line, or the mark of a countdown (R144). -/
inductive TextItem
  | glyphs (codes : List Byte)
  | countdown
  deriving DecidableEq, Repr

/-- A render in progress (R142): the language read at its start, the items formed so far and the elements still to form, each
with its line number; the head of `todo` is the TEXT whose store read, on page `page`, it waits for. -/
structure Render where
  language : Fin 4
  formed : List (Nat × TextItem)
  todo : List (Nat × LineElem)
  page : Nat
  deriving DecidableEq, Repr

/-- A region record (R142). `builtin` marks line buffers drawn through the built-in patterns (R147). -/
structure Region where
  content : Content
  texts1 : List TextItem
  texts2 : List TextItem
  line1 : List Byte
  line2 : List Byte
  builtin : Bool
  icons : Word16
  blink : Word16
  render : Option Render
  deriving DecidableEq, Repr

/-- Panel power states (R152). -/
inductive Power | on | dim | off | settling
  deriving DecidableEq, Repr

/-- Backlight levels (R152). -/
inductive Backlight | dark | eighth | full
  deriving DecidableEq, Repr

/-- What the panel shows: 32 dot rows of 48 bytes, the most significant bit leftmost, LOWER left of UPPER; 40 segments; backlight
and driver (R148, R150, R152, R154). -/
structure Panel where
  rows : List (List Byte)
  segments : List Bool
  backlight : Backlight
  driver : Bool
  deriving DecidableEq, Repr

/-- The Display Controller. The font lists the patterns that are not dark, keyed by glyph code; the map gives, for the sixteen
LOWER and then the sixteen UPPER indicators, a segment or NONE. `offLate` is the model's own: an end of the panel-off timer that does not
come (log 36). -/
structure Display where
  regions : PerSide Region
  font : List (Nat × List Byte)
  map : List (Option Nat)
  blinkLit : Bool
  blinkCount : Nat
  power : Power
  panelOff : Option Counting
  settling : Option Nat
  lampTest : Bool
  blank : Bool
  lastRead : Option Side
  panel : Panel
  offLate : Bool
  deriving DecidableEq, Repr

/-! ### Service and Test Unit -/

/-- The self-tests (R181). -/
inductive TestKind | storeSum | speechCheck | directoryCheck | keyCheck
  deriving DecidableEq, Repr

/-- Verdicts (R174). -/
inductive Verdict | pass | fail | aborted
  deriving DecidableEq, Repr

/-- A test in progress: STORE SUM with its first and last page, the next slot (counted from the first page) and the sum; SPEECH
CHECK with its resolution, the next block and the blocks faulted; KEY CHECK with its duration, elapsed steps and event count. -/
inductive Running
  | storeSum (first last next sum : Nat)
  | speechCheck (res : Resolution) (next faulted : Nat)
  | keyCheck (duration elapsed count : Nat)
  deriving DecidableEq, Repr

/-- The test result record (R181). -/
inductive TestResult
  | empty
  | running (test : Running)
  | done (kind : TestKind) (verdict : Verdict) (a b : Nat)
  deriving DecidableEq, Repr

/-- An audition that is a candidate or is speaking (R180). -/
structure Audition where
  phrase : Nat
  language : Fin 4
  deriving DecidableEq, Repr

/-- The Service and Test Unit. `checkLate` is the model's own: the end of a KEY CHECK that does not come (log 36). -/
structure Service where
  flag : Bool
  result : TestResult
  audition : Option Audition
  checkLate : Bool
  deriving DecidableEq, Repr

/-! ### The machine -/

/-- No behaviour of the spec stops the part, so there is no fault (log 31). -/
inductive Fault
  deriving DecidableEq, Repr

/-- Why a step gives no meaning. -/
inductive Refusal
  /-- Raised by an arm of exec whose command has no meaning yet; safe: nothing is proved of it. -/
  | notModelled (mnemonic : String)
  deriving DecidableEq, Repr

/-- Ends of prompts' timers that do not come, by slot: the prompt left the table with its timer at the end, or, for a repeat, a replay stopped
the timer there (R11, R24, R48; log 36). -/
structure LateEnds where
  expiries : List Nat
  dwells : List Nat
  repeats : List Nat
  deriving DecidableEq, Repr

/-- The whole part, with the queue of commands that wait for it and the counter free values are drawn with. -/
structure State where
  lnk : PerPort PortLink
  nq : PerPort NoticeQueue
  /-- Link ignore time left, in ms, while it runs (R171). -/
  ignoreLeft : Option Nat
  cfg : Configuration
  ptb : PromptTable
  sch : Scheduler
  scu : PerSide SideRecords
  ksc : Scanner
  psc : PhraseStore
  spe : SpeechEngine
  tgn : ToneGenerator
  dsp : Display
  stu : Service
  /-- Ends of timers that commands taken in this moment have overtaken (log 36). -/
  overtaken : PerSide Overtaken
  /-- Ends of prompts' timers that do not come in this moment (log 36). -/
  late : LateEnds
  /-- Commands that wait, first in, first out (log 1). -/
  pending : List Instr
  /-- The counter that free values are drawn with (log 10). -/
  free : Nat
  deriving DecidableEq, Repr

/-! ### Reset values -/

/-- The configuration record after a whole-part reset (R175). -/
def Configuration.default : Configuration where
  language := 0
  mode := .on
  volume := 1
  levels := ⟨20, 14, 8, 2⟩
  idleTimeout := 120
  holdLapse := 120
  panelOff := 60
  quotaLower := 16
  quotaUpper := 16
  quotaPayment := 8
  quotaRoom := 8
  lockOnFault := false
  fairTurn := true

/-- A port's link after a whole-part reset (R156). -/
def PortLink.reset : PortLink := ⟨none, .ignore, 0, none, [], false⟩

/-- A port's notice queue after a whole-part reset (R156). -/
def NoticeQueue.reset : NoticeQueue := ⟨[], 0xFFF, false⟩

/-- A side of the Scheduler after a whole-part reset (R28). -/
def SideSchedule.reset : SideSchedule := ⟨none, none, false, ⟨0, false⟩, none⟩

/-- The records of a side after a whole-part reset, with the default house values (R52, R63, R68). -/
def SideRecords.reset : SideRecords := ⟨⟨false, 0, .on, 1, none⟩, ⟨none, none⟩, ⟨.idle, 0, false, none⟩⟩

/-- No end of a timer has been overtaken (log 36). -/
def Overtaken.none : Overtaken := ⟨false, false, false, false⟩

/-- A key that is open and at rest; the contact is a DESIGN CHOICE (log 6). -/
def KeyRecord.reset : KeyRecord := ⟨false, .idle, 0, false, false, false⟩

/-- Keys and knob of a side at rest (log 6). -/
def SideKeys.reset : SideKeys :=
  ⟨⟨.reset, .reset, .reset, .reset, .reset, .reset, .reset⟩, ⟨false, false, none, false⟩⟩

/-- A window after a whole-part reset (R100). -/
def Window.reset : Window := ⟨false, 0, 0, 0, false, false, false⟩

/-- A port's windows, buffer and post error record after a whole-part reset (R100, R106, R108). -/
def PortStore.reset : PortStore := ⟨⟨.reset, .reset⟩, none, none⟩

/-- An absent directory entry (R95); the directory reads so where it lists nothing. -/
def DirEntry.absent : DirEntry := ⟨false, 0, 0, false⟩

/-- The tone patterns after a power-on reset (R138). -/
def ToneGenerator.builtinPatterns : List (Nat × List Note) :=
  [(14, [⟨121, 2⟩]), (15, [⟨15, 8⟩, ⟨0, 4⟩, ⟨15, 8⟩])]

/-- A dark line of 24 positions (R142). -/
def Region.blankLine : List Byte := List.replicate 24 0x20

/-- A region record after a whole-part reset (R142). -/
def Region.reset : Region := ⟨.empty, [], [], Region.blankLine, Region.blankLine, false, 0, 0, none⟩

/-- The identity segment map (R150). -/
def Display.identityMap : List (Option Nat) := (List.range 32).map some

/-- Every dot and segment dark, backlight dark, driver off (R152). -/
def Panel.off : Panel := ⟨List.replicate 32 (List.replicate 48 0), List.replicate 40 false, .dark, false⟩

/-- The Display Controller after a whole-part reset, over a font and a map (R155). -/
def Display.reset (font : List (Nat × List Byte)) (map : List (Option Nat)) : Display where
  regions := ⟨.reset, .reset⟩
  font := font
  map := map
  blinkLit := true
  blinkCount := 0
  power := .off
  panelOff := none
  settling := none
  lampTest := false
  blank := false
  lastRead := none
  panel := .off
  offLate := false

/-- The Phrase Store Controller after a whole-part reset, over page contents and a directory (R116). -/
def PhraseStore.reset (memory : Memory) (directory : Directory) : PhraseStore where
  memory := memory
  directory := directory
  ports := ⟨.reset, .reset, .reset, .reset⟩
  transfer := none
  lastServed := none

/-- The part after a whole-part reset over what such a reset may keep: page contents, directory, tone patterns, font and segment
map; the contacts of the panel, the queue and the free counter are not the part's to reset. -/
def State.wholeReset (ignore : Nat) (memory : Memory) (directory : Directory) (patterns : List (Nat × List Note))
    (font : List (Nat × List Byte)) (map : List (Option Nat)) (keys : PerSide SideKeys) (pending : List Instr)
    (free : Nat) : State where
  lnk := ⟨.reset, .reset, .reset, .reset⟩
  nq := ⟨.reset, .reset, .reset, .reset⟩
  ignoreLeft := some ignore
  cfg := .default
  ptb := ⟨[], 0⟩
  sch := ⟨⟨.reset, .reset⟩, none, false, false, none, none⟩
  scu := ⟨.reset, .reset⟩
  ksc := ⟨false, keys⟩
  psc := .reset memory directory
  spe := ⟨.idle, none, none, 0, 0, [], none⟩
  tgn := ⟨patterns, none, false⟩
  dsp := .reset font map
  stu := ⟨false, .empty, none, false⟩
  overtaken := ⟨.none, .none⟩
  late := ⟨[], [], []⟩
  pending := pending
  free := free

/-- The machine right after a power-on reset (R116, R118, R138, R155, R156), with an empty queue. -/
def State.reset : State :=
  .wholeReset Config.ignorePowerOn [] [] ToneGenerator.builtinPatterns [] Display.identityMap ⟨.reset, .reset⟩ [] 0

end Sys2Proof.Machine
end

