-- ==== Sys2Proof/Machine/Ops.lean ====
section
/-! DEFINITION. Named operations over the state: the records of a side, of a port and of a prompt; the sparse lists in
canonical form (the phrase store among them, R91); notices (R167, R169) and responses (R160, R161). -/

namespace Sys2Proof.Machine

/-! ### Records of a side and of a port -/

/-- The value for a side. -/
def PerSide.get {α : Type} (x : PerSide α) : Side → α
  | .lower => x.lower
  | .upper => x.upper

/-- The record with one side's value changed. -/
def PerSide.update {α : Type} (x : PerSide α) (sd : Side) (f : α → α) : PerSide α :=
  match sd with
  | .lower => ⟨f x.lower, x.upper⟩
  | .upper => ⟨x.lower, f x.upper⟩

/-- The value for a port. -/
def PerPort.get {α : Type} (x : PerPort α) : Port → α
  | .a => x.a
  | .b => x.b
  | .c => x.c
  | .d => x.d

/-- The record with one port's value changed. -/
def PerPort.update {α : Type} (x : PerPort α) (p : Port) (f : α → α) : PerPort α :=
  match p with
  | .a => ⟨f x.a, x.b, x.c, x.d⟩
  | .b => ⟨x.a, f x.b, x.c, x.d⟩
  | .c => ⟨x.a, x.b, f x.c, x.d⟩
  | .d => ⟨x.a, x.b, x.c, f x.d⟩

/-- One value changed the same way on every port. -/
def PerPort.mapAll {α β : Type} (x : PerPort α) (f : α → β) : PerPort β := ⟨f x.a, f x.b, f x.c, f x.d⟩

/-- One value changed the same way on both sides. -/
def PerSide.mapAll {α β : Type} (x : PerSide α) (f : α → β) : PerSide β := ⟨f x.lower, f x.upper⟩

/-- The other side of the panel. -/
def otherSide : Side → Side
  | .lower => .upper
  | .upper => .lower

/-- The link record of a port. -/
def State.link (s : State) (p : Port) : PortLink := s.lnk.get p

/-- The link record of a port, changed. -/
def State.onLink (s : State) (p : Port) (f : PortLink → PortLink) : State := { s with lnk := s.lnk.update p f }

/-- The notice queue of a port, changed. -/
def State.onQueue (s : State) (p : Port) (f : NoticeQueue → NoticeQueue) : State := { s with nq := s.nq.update p f }

/-- The session, hold and cycle records of a side. -/
def State.records (s : State) (sd : Side) : SideRecords := s.scu.get sd

/-- The session record of a side, changed. -/
def State.onSession (s : State) (sd : Side) (f : Session → Session) : State :=
  { s with scu := s.scu.update sd (fun r => { r with session := f r.session }) }

/-- The hold record of a side, changed. -/
def State.onHold (s : State) (sd : Side) (f : HoldRecord → HoldRecord) : State :=
  { s with scu := s.scu.update sd (fun r => { r with hold := f r.hold }) }

/-- The cycle record of a side, changed. -/
def State.onCycle (s : State) (sd : Side) (f : Cycle → Cycle) : State :=
  { s with scu := s.scu.update sd (fun r => { r with cycle := f r.cycle }) }

/-- What commands of this moment have overtaken on a side, changed (log 36). -/
def State.onOvertaken (s : State) (sd : Side) (f : Overtaken → Overtaken) : State :=
  { s with overtaken := s.overtaken.update sd f }

/-- Whether a timer that counts up stands at its end (R56, R66, R152). -/
def Counting.ended (x : Counting) : Bool := decide (x.limit * Config.ticksPerSecond ≤ x.elapsed)

/-- The Scheduler's record of a side. -/
def State.schedule (s : State) (sd : Side) : SideSchedule := s.sch.sides.get sd

/-- The Scheduler's record of a side, changed. -/
def State.onSchedule (s : State) (sd : Side) (f : SideSchedule → SideSchedule) : State :=
  { s with sch := { s.sch with sides := s.sch.sides.update sd f } }

/-- The region record of a side. -/
def State.region (s : State) (sd : Side) : Region := s.dsp.regions.get sd

/-- The region record of a side, changed. -/
def State.onRegion (s : State) (sd : Side) (f : Region → Region) : State :=
  { s with dsp := { s.dsp with regions := s.dsp.regions.update sd f } }

/-- The PSC's records of a port. -/
def State.portStore (s : State) (p : Port) : PortStore := s.psc.ports.get p

/-- The PSC's records of a port, changed. -/
def State.onPortStore (s : State) (p : Port) (f : PortStore → PortStore) : State :=
  { s with psc := { s.psc with ports := s.psc.ports.update p f } }

/-- The keys of a side as a function of the key. -/
def KeyBank.get (b : KeyBank) : Key → KeyRecord
  | .start => b.start
  | .stop => b.stop
  | .option => b.option
  | .yes => b.yes
  | .no => b.no
  | .help => b.help
  | .speech => b.speech

/-- The keys of a side with one key's record changed. -/
def KeyBank.update (b : KeyBank) (k : Key) (f : KeyRecord → KeyRecord) : KeyBank :=
  match k with
  | .start => { b with start := f b.start }
  | .stop => { b with stop := f b.stop }
  | .option => { b with option := f b.option }
  | .yes => { b with yes := f b.yes }
  | .no => { b with no := f b.no }
  | .help => { b with help := f b.help }
  | .speech => { b with speech := f b.speech }

/-- Every key of a side changed the same way. -/
def KeyBank.mapAll (b : KeyBank) (f : KeyRecord → KeyRecord) : KeyBank :=
  ⟨f b.start, f b.stop, f b.option, f b.yes, f b.no, f b.help, f b.speech⟩

/-- The record of a key of a side. -/
def State.keyRecord (s : State) (sd : Side) (k : Key) : KeyRecord := (s.ksc.sides.get sd).keys.get k

/-- The record of a key of a side, changed. -/
def State.onKey (s : State) (sd : Side) (k : Key) (f : KeyRecord → KeyRecord) : State :=
  { s with ksc := { s.ksc with sides := s.ksc.sides.update sd (fun x => { x with keys := x.keys.update k f }) } }

/-- The knob of a side, changed. -/
def State.onKnob (s : State) (sd : Side) (f : Knob → Knob) : State :=
  { s with ksc := { s.ksc with sides := s.ksc.sides.update sd (fun x => { x with knob := f x.knob }) } }

/-! ### Sparse lists in canonical form -/

/-- What a sparse list holds at a key; `d` where it lists nothing. -/
def mapGet {β : Type} (d : β) : List (Nat × β) → Nat → β
  | [], _ => d
  | e :: rest, n => if e.1 = n then e.2 else mapGet d rest n

/-- A sparse list without the entry of a key. -/
def mapErase {β : Type} : List (Nat × β) → Nat → List (Nat × β)
  | [], _ => []
  | e :: rest, n => if e.1 = n then rest else e :: mapErase rest n

/-- A sparse list with an entry put in its place among rising keys. -/
def mapInsert {β : Type} : List (Nat × β) → Nat → β → List (Nat × β)
  | [], n, v => [(n, v)]
  | e :: rest, n, v =>
    if n < e.1 then (n, v) :: e :: rest else if e.1 = n then (n, v) :: rest else e :: mapInsert rest n v

/-- A sparse list after a write: writing what an unlisted key reads as removes the entry. -/
def mapPut {β : Type} [DecidableEq β] (d : β) (m : List (Nat × β)) (n : Nat) (v : β) : List (Nat × β) :=
  if v = d then mapErase m n else mapInsert m n v

/-- The canonical form: keys strictly rising, and no entry equal to what an unlisted key reads as. -/
def mapWf {β : Type} [DecidableEq β] (d : β) : List (Nat × β) → Bool
  | [] => true
  | e :: rest => decide (e.2 ≠ d) && (rest.all fun x => decide (e.1 < x.1)) && mapWf d rest

/-- What an unlisted store address reads as: 0, the contents after a power-on reset (R91; log 30). -/
def unlistedByte : Byte := 0

/-- The canonical form of the phrase store. -/
def Memory.wf (m : Memory) : Bool := mapWf unlistedByte m

/-- The key of a byte of the store: page and offset within it (R91). -/
def storeKey (page offset : Nat) : Nat := Config.pageBytes * page + offset

/-- A byte of the store. -/
def readByte (m : Memory) (page offset : Nat) : Byte := mapGet unlistedByte m (storeKey page offset)

/-- The store after one byte is written. -/
def writeByte (m : Memory) (page offset : Nat) (v : Byte) : Memory := mapPut unlistedByte m (storeKey page offset) v

/-- Bytes of the store within one page. -/
def readBytes (m : Memory) (page offset length : Nat) : List Byte :=
  (List.range length).map fun i => readByte m page (offset + i)

/-- The store after bytes are written from an offset on. -/
def writeBytes (m : Memory) (page : Nat) : Nat → List Byte → Memory
  | _, [] => m
  | offset, v :: rest => writeBytes (writeByte m page offset v) page (offset + 1) rest

/-! ### Roles and ports -/

/-- The four ports in order. -/
def allPorts : List Port := [.a, .b, .c, .d]

/-- The port that holds a role, if any (R156: at most one). -/
def State.portOf (s : State) (r : Role) : Option Port := allPorts.find? fun p => decide ((s.link p).role = some r)

/-- The drum role of a side (00 "Conventions"). -/
def drumRole : Side → Role
  | .lower => .lowerDrum
  | .upper => .upperDrum

/-- The side of a drum role. -/
def roleSide : Role → Option Side
  | .lowerDrum => some .lower
  | .upperDrum => some .upper
  | .payment => none
  | .room => none

/-! ### Notices -/

/-- Notice kind codes (R173). -/
def NoticeKind.code : NoticeKind → Nat
  | .closed => 1
  | .answered => 2
  | .key => 3
  | .phase => 4
  | .countdownZero => 5
  | .session => 6
  | .holdLapsed => 7
  | .postFault => 8
  | .phraseFault => 9
  | .speechState => 10
  | .testDone => 11
  | .overrun => 12

/-- Whether an attention mask enables a kind (R173). -/
def maskEnables (mask : BitVec 12) (k : NoticeKind) : Bool := mask.getLsbD (k.code - 1)

/-- The level of ATTN for a queue and a mask (R169). -/
def attnLevel (notices : List Notice) (mask : BitVec 12) : Bool := notices.any fun n => maskEnables mask n.kind

/-- A queue with other notices, ATTN evaluated again (R169). -/
def NoticeQueue.setNotices (q : NoticeQueue) (l : List Notice) : NoticeQueue :=
  { q with notices := l, attn := attnLevel l q.mask }

/-- A queue with another mask, ATTN evaluated again (R169). -/
def NoticeQueue.setMask (q : NoticeQueue) (m : BitVec 12) : NoticeQueue :=
  { q with mask := m, attn := attnLevel q.notices m }

/-- The OVERRUN notice (R167). -/
def overrunNotice : Notice := ⟨.overrun, none, none, 0, 0, false⟩

/-- The notices of a queue after one is offered (R167). -/
def pushNotice (l : List Notice) (n : Notice) : List Notice :=
  if l.length < Config.noticePlaces - 1 then l ++ [n]
  else if l.length = Config.noticePlaces - 1 ∧ (l.getLast?.map (·.kind)) ≠ some .overrun then l ++ [overrunNotice]
  else l

/-- A notice is offered to a port; one that holds no role discards it (R167). -/
def State.offer (s : State) (p : Port) (n : Notice) : State :=
  if (s.link p).role.isSome then s.onQueue p fun q => q.setNotices (pushNotice q.notices n) else s

/-- A notice is offered to each of some ports. -/
def State.offerEach (s : State) (ps : List Port) (n : Notice) : State := ps.foldl (fun s p => s.offer p n) s

/-- A notice is offered to the ports whose mask enables its kind (R60). -/
def State.offerMasked (s : State) (n : Notice) : State :=
  s.offerEach (allPorts.filter fun p => maskEnables (s.nq.get p).mask n.kind) n

/-- A notice is offered to the port bound to ROOM, if any. -/
def State.offerRoom (s : State) (n : Notice) : State :=
  match s.portOf .room with
  | some p => s.offer p n
  | none => s

/-! ### Responses -/

/-- A response code: the request code with bit 7 set (R159). -/
def responseCode (code : Byte) : Byte := code ||| 0x80

/-- Whether the kept transmit place is taken (R160). -/
def PortLink.keptTaken (l : PortLink) : Bool := l.transmit.any (·.kept)

/-- The response of the request in work: it is placed and the request leaves work, or it waits for the kept place (R160,
R161). -/
def PortLink.respond (l : PortLink) (code seq : Byte) (st : Status) (body : List Byte) : PortLink :=
  let f : Frame := ⟨responseCode code, seq, st, body, true⟩
  if l.keptTaken then { l with inWork := some ⟨code, seq, .response f⟩ }
  else { l with inWork := none, transmit := l.transmit ++ [f] }

/-- A BUSY or FRAME_ERROR response: placed if one of the three places is free, else not sent (R160). -/
def PortLink.refusal (l : PortLink) (f : Frame) : PortLink :=
  if (l.transmit.filter fun g => !g.kept).length < Config.refusalPlaces then { l with transmit := l.transmit ++ [f] } else l

/-- The response of the request in work of a port. -/
def State.respond (s : State) (p : Port) (code seq : Byte) (st : Status) (body : List Byte) : State :=
  s.onLink p fun l => l.respond code seq st body

/-- A request answered, or left in work with what it waits for (R161, R162). -/
def State.reply (s : State) (p : Port) (code seq : Byte) : Reply → State
  | .answer st body => s.respond p code seq st body
  | .wait w => s.onLink p fun l => { l with inWork := some ⟨code, seq, w⟩ }

/-- The request in work of a port gets its reply later. -/
def State.replyWork (s : State) (p : Port) (r : Reply) : State :=
  match (s.link p).inWork with
  | some w => s.reply p w.code w.seq r
  | none => s

/-! ### Prompts -/

/-- The live prompt of a slot. -/
def State.prompt (s : State) (slot : Nat) : Option Prompt := s.ptb.prompts.find? fun p => decide (p.slot = slot)

/-- The table with other live prompts. -/
def State.setPrompts (s : State) (l : List Prompt) : State := { s with ptb := { s.ptb with prompts := l } }

/-- The prompt of a slot, changed. -/
def State.onPrompt (s : State) (slot : Nat) (f : Prompt → Prompt) : State :=
  s.setPrompts (s.ptb.prompts.map fun p => if p.slot = slot then f p else p)

/-- The live prompt of an owner with a tag (R8). -/
def State.tagged (s : State) (o : Port) (tag : Byte) : Option Prompt :=
  s.ptb.prompts.find? fun p => decide (p.owner = o ∧ p.tag = tag)

/-- The live count of a port (R14; log 13). -/
def State.liveCount (s : State) (o : Port) : Nat := (s.ptb.prompts.filter fun p => decide (p.owner = o)).length

/-- The lowest-numbered slot that holds none of these prompts (R12). -/
def lowestFree (l : List Prompt) : Option Nat :=
  (List.range Config.slotCount).find? fun n => l.all fun p => decide (p.slot ≠ n)

/-! ### Free values -/

/-- A code field whose value the layout leaves unstated: free among the first `n` codes of its table, since the part sends only the codes
listed (R174; log 8); `i` counts from the counter of free values. -/
def State.unstatedCode (s : State) (i n : Nat) : Byte := BitVec.ofNat 8 ((Config.unstatedByte (s.free + i)).toNat % n)

/-- The next free values of response bytes the layout leaves unstated (log 8), and the counter past them. -/
def State.unstated (s : State) (n : Nat) : List Byte × State :=
  ((List.range n).map fun i => Config.unstatedByte (s.free + i), { s with free := s.free + n })

end Sys2Proof.Machine
end

