-- ==== Sys2Proof/Machine/Operands.lean ====
section
/-! DEFINITION. Operand forms: the code tables of R174, read both ways; the layout of a request frame (R172, R173) and its CRC
(R157); which role may send which request (R163); and the elements of a prompt with their ranges (R3 to R6). -/

namespace Sys2Proof.Machine

/-! ### Codes of R174 -/

/-- Side codes. -/
def sideOf (b : Byte) : Option Side := if b = 0 then some .lower else if b = 1 then some .upper else none

/-- The code of a side. -/
def sideCode : Side → Byte
  | .lower => 0
  | .upper => 1

/-- The number of a port: A is 0 (R170). -/
def portNumber : Port → Byte
  | .a => 0
  | .b => 1
  | .c => 2
  | .d => 3

/-- The code of a port or none in notices and response bodies. -/
def portCode : Option Port → Byte
  | none => 0
  | some p => portNumber p + 1

/-- The target port of SET WINDOW. -/
def targetOf (b : Byte) : Option Port :=
  if b = 0 then some .a else if b = 1 then some .b else if b = 2 then some .c else if b = 3 then some .d else none

/-- Role codes a client may name. -/
def roleOf (b : Byte) : Option Role :=
  if b = 1 then some .lowerDrum else if b = 2 then some .upperDrum else if b = 3 then some .payment
  else if b = 4 then some .room else none

/-- The code of a role or none. -/
def roleCode : Option Role → Byte
  | none => 0
  | some .lowerDrum => 1
  | some .upperDrum => 2
  | some .payment => 3
  | some .room => 4

/-- Class codes. -/
def classOf (b : Byte) : Option PClass :=
  if b = 0 then some .safety else if b = 1 then some .fault else if b = 2 then some .action else if b = 3 then some .confirm
  else if b = 4 then some .info else if b = 5 then some .status else none

/-- The code of a class. -/
def classCode : PClass → Byte
  | .safety => 0
  | .fault => 1
  | .action => 2
  | .confirm => 3
  | .info => 4
  | .status => 5

/-- The code of a prompt state. -/
def stateCode : PState → Byte
  | .queued => 0
  | .granted .presenting => 1
  | .granted .awaiting => 2
  | .granted .dwelling => 3
  | .granted .standing => 4
  | .granted .acknowledged => 5
  | .held _ => 6

/-- The code of the key of a key event. -/
def eventKeyCode : EventKey → Byte
  | .key .start => 0
  | .key .stop => 1
  | .key .option => 2
  | .key .yes => 3
  | .key .no => 4
  | .key .help => 5
  | .key .speech => 6
  | .knob => 7

/-- The code of the kind of a key event. -/
def eventKindCode : EventKind → Byte
  | .press => 0
  | .hold => 1
  | .cw => 2
  | .ccw => 3

/-- Phase codes. -/
def phaseOf (b : Byte) : Option Phase :=
  if b = 0 then some .idle else if b = 1 then some .fill else if b = 2 then some .wash else if b = 3 then some .rinse
  else if b = 4 then some .spin else if b = 5 then some .dry else if b = 6 then some .cool else if b = 7 then some .done
  else if b = 8 then some .fault else none

/-- The code of a phase. -/
def phaseCode : Phase → Byte
  | .idle => 0
  | .fill => 1
  | .wash => 2
  | .rinse => 3
  | .spin => 4
  | .dry => 5
  | .cool => 6
  | .done => 7
  | .fault => 8

/-- Flags sent as 0 or 1: run, lamp test, blank, lock-on-fault, fair turn. -/
def boolOf (b : Byte) : Option Bool := if b = 0 then some false else if b = 1 then some true else none

/-- The code of a flag. -/
def boolCode : Bool → Byte
  | false => 0
  | true => 1

/-- Speech mode codes. -/
def speechModeOf (b : Byte) : Option SpeechMode :=
  if b = 0 then some .on else if b = 1 then some .assist else if b = 2 then some .off else none

/-- The code of a speech mode. -/
def modeCode : SpeechMode → Byte
  | .on => 0
  | .assist => 1
  | .off => 2

/-- A language or a volume ID, 0 to 3. -/
def fourOf (b : Byte) : Option (Fin 4) := if h : b.toNat < 4 then some ⟨b.toNat, h⟩ else none

/-- The code of a language or a volume ID. -/
def fourCode (n : Fin 4) : Byte := byteOf n.val

/-- Status codes. -/
def Status.code : Status → Byte
  | .ok => 0x00
  | .frameError => 0x01
  | .unknownRequest => 0x02
  | .badField => 0x03
  | .busy => 0x04
  | .notBound => 0x05
  | .portBound => 0x06
  | .roleTaken => 0x07
  | .notPermitted => 0x08
  | .tagLive => 0x09
  | .noSuchTag => 0x0A
  | .quota => 0x0B
  | .tableFull => 0x0C
  | .sideAsleep => 0x0D
  | .notHolder => 0x0E
  | .noWindow => 0x0F
  | .noRead => 0x10
  | .noWrite => 0x11
  | .pagePinned => 0x12
  | .serviceOnly => 0x13
  | .testResultPending => 0x14
  | .empty => 0x15

/-- The code of the cause of a failed posted write: the status code of NO_WINDOW or NO_WRITE. -/
def causeCode : PostCause → Byte
  | .noWindow => Status.noWindow.code
  | .noWrite => Status.noWrite.code

/-- Test codes of SELF TEST. -/
def testOf (b : Byte) : Option TestKind :=
  if b = 1 then some .storeSum else if b = 2 then some .speechCheck else if b = 3 then some .directoryCheck
  else if b = 4 then some .keyCheck else none

/-- The code of a test. -/
def testCode : TestKind → Byte
  | .storeSum => 1
  | .speechCheck => 2
  | .directoryCheck => 3
  | .keyCheck => 4

/-- The test code of an audition. -/
def auditionCode : Byte := 5

/-- The code of a verdict. -/
def verdictCode : Verdict → Byte
  | .pass => 1
  | .fail => 2
  | .aborted => 3

/-! ### Elements and ranges of a prompt (R3 to R6) -/

/-- A span element from its code, if it is in range (R3, R173). -/
def spanElemOf (e : RawElem) : Option SpanElem :=
  let n := e.param.toNat
  if e.kind = 0x01 then (if n ≤ 223 then some (.phrase n) else none)
  else if e.kind = 0x02 then (if n ≤ 999 then some (.number n) else none)
  else if e.kind = 0x03 then some .countdown
  else if e.kind = 0x04 then (if 100 ≤ n ∧ n ≤ 2000 ∧ n % 100 = 0 then some (.pause n) else none)
  else none

/-- A line element from its code, if it is in range (R4, R173). -/
def lineElemOf (e : RawElem) : Option LineElem :=
  let n := e.param.toNat
  if e.kind = 0x11 then (if n ≤ 223 then some (.text n) else none)
  else if e.kind = 0x12 then (if n ≤ 999 then some (.number n) else none)
  else if e.kind = 0x13 then some .countdown
  else if e.kind = 0x14 then some .blank
  else none

/-- Every value of a list read by `f`, or none if one is out of range. -/
def readAll {α β : Type} (f : α → Option β) : List α → Option (List β)
  | [] => some []
  | x :: rest =>
    match f x, readAll f rest with
    | some y, some ys => some (y :: ys)
    | _, _ => none

/-- A page record, if it is in range (R4). -/
def pageOf (g : RawPage) : Option PageRecord :=
  if 1 ≤ g.lines.length ∧ g.lines.length ≤ 2 ∧ g.lines.all (fun l => decide (1 ≤ l.length ∧ l.length ≤ 3)) then
    (readAll (readAll lineElemOf) g.lines).map fun ls => ⟨ls, g.icons, g.blink⟩
  else none

/-- The bit of a response set that stands for a key (R173). -/
def responseBit : Key → Option Nat
  | .start => some 0
  | .stop => some 1
  | .option => some 2
  | .yes => some 3
  | .no => some 4
  | .help => none
  | .speech => none

/-! ### Request frames -/

/-- One bit of the CRC of R157: the register shifts left and takes in the polynomial where its high bit is set. -/
def crcShift (r : Word16) : Word16 := if r.getLsbD 15 then (r <<< 1) ^^^ 0x1021 else r <<< 1

/-- The CRC register after one byte, which enters at the high end (R157). -/
def crcByte (r : Word16) (b : Byte) : Word16 :=
  let x := r ^^^ (b.setWidth 16 <<< 8)
  crcShift (crcShift (crcShift (crcShift (crcShift (crcShift (crcShift (crcShift x)))))))

/-- The CRC over the length byte and every body byte (R157). -/
def frameCrc (body : List Byte) : Word16 := (byteOf body.length :: body).foldl crcByte 0xFFFF

/-- The bytes of a response frame on the transmit line (R172). -/
def Frame.bytes (f : Frame) : List Byte :=
  let b := f.code :: f.seq :: f.status.code :: f.body
  0x5A :: byteOf b.length :: b ++ bytesOf (frameCrc b)

/-- So many elements from the bytes of a body (R173). -/
def parseElems : Nat → List Byte → Option (List RawElem × List Byte)
  | 0, l => some ([], l)
  | n + 1, k :: lo :: hi :: l => (parseElems n l).map fun r => (⟨k, wordOf lo hi⟩ :: r.1, r.2)
  | _ + 1, _ => none

/-- So many lines from the bytes of a body (R173). -/
def parseLines : Nat → List Byte → Option (List (List RawElem) × List Byte)
  | 0, l => some ([], l)
  | n + 1, c :: l =>
    match parseElems c.toNat l with
    | some (es, rest) => (parseLines n rest).map fun r => (es :: r.1, r.2)
    | none => none
  | _ + 1, [] => none

/-- A page record from the bytes that stand at the end of a body (R173). -/
def parsePage : List Byte → Option RawPage
  | i0 :: i1 :: b0 :: b1 :: c :: l =>
    match parseLines c.toNat l with
    | some (ls, []) => some ⟨wordOf i0 i1, wordOf b0 b1, ls⟩
    | _ => none
  | _ => none

/-- The body of POST PROMPT from its bytes (R173). -/
def parsePrompt : List Byte → Option PromptBody
  | tag :: cls :: urg :: side :: fl :: rs :: tone :: e0 :: e1 :: rc :: ri :: dw :: sc :: l =>
    match parseElems sc.toNat l with
    | none => none
    | some (span, rest) =>
      let body (page : Option RawPage) : PromptBody :=
        { tag := tag, cls := cls, urgency := urg, side := side, page := page
          tone := if fl.getLsbD 1 then some tone else none
          expiry := if fl.getLsbD 2 then some (wordOf e0 e1) else none
          repeats := if fl.getLsbD 3 then some (rc, ri) else none
          dwell := if fl.getLsbD 4 then some dw else none
          holdToAnswer := fl.getLsbD 5, wake := fl.getLsbD 6, replace := fl.getLsbD 7
          responseSet := rs, span := span }
      if fl.getLsbD 0 then (parsePage rest).map fun g => body (some g)
      else if rest.isEmpty then some (body none) else none
  | _ => none

/-- The notes of SET TONE from their bytes (R174). -/
def parseNotes : List Byte → Option (List (Byte × Byte))
  | [] => some []
  | f :: d :: l => (parseNotes l).map fun r => (f, d) :: r
  | [_] => none

/-- The configuration record from its 19 bytes (R174). -/
def parseConfig : List Byte → Option ConfigBody
  | [l, m, v, l0, l1, l2, l3, i0, i1, h0, h1, p0, p1, q0, q1, q2, q3, lock, fair] =>
    some ⟨l, m, v, l0, l1, l2, l3, wordOf i0 i1, wordOf h0 h1, wordOf p0 p1, q0, q1, q2, q3, lock, fair⟩
  | _ => none

/-- A request from its code and its own body; none where the length is not the one the layout fixes (R162 step 5, R174) or the
code is not in the table. -/
def parseRequest (code : Byte) (body : List Byte) : Option Request :=
  match code.toNat, body with
  | 0x01, [r] => some (.bindRole r)
  | 0x02, [] => some .unbindRole
  | 0x03, [] => some .clientReset
  | 0x04, [] => some .readIdentity
  | 0x05, [] => some .fetchNotice
  | 0x06, [m0, m1] => some (.setAttentionMask (wordOf m0 m1))
  | 0x10, l => (parsePrompt l).map .postPrompt
  | 0x11, [t] => some (.withdrawPrompt t)
  | 0x12, [t] => some (.queryPrompt t)
  | 0x13, [n] => some (.listPrompts n)
  | 0x20, [sd] => some (.startSession sd)
  | 0x21, [sd] => some (.endSession sd)
  | 0x22, [sd, l] => some (.setLanguage sd l)
  | 0x23, [sd, m] => some (.setSpeechMode sd m)
  | 0x24, [sd] => some (.claimSide sd)
  | 0x25, [sd] => some (.releaseSide sd)
  | 0x26, [sd, pr, ph, c0, c1, r] => some (.setCycle sd pr ph (wordOf c0 c1) r)
  | 0x27, [sd] => some (.readCycle sd)
  | 0x30, p0 :: p1 :: o0 :: o1 :: n :: data => some (.writePage (wordOf p0 p1) (wordOf o0 o1) n data)
  | 0x31, [p0, p1, o0, o1, n] => some (.readPage (wordOf p0 p1) (wordOf o0 o1) n)
  | 0x32, [] => some .readPostError
  | 0x33, [t, w, fl, f0, f1, l0, l1, o0, o1] => some (.setWindow t w fl (wordOf f0 f1) (wordOf l0 l1) (wordOf o0 o1))
  | 0x34, [n, l, fl, f0, f1, b] => some (.setPhrase n l fl (wordOf f0 f1) b)
  | 0x35, [n, l] => some (.readPhrase n l)
  | 0x40, l => (parseConfig l).map .setConfig
  | 0x41, [] => some .readConfig
  | 0x42, pt :: n :: l => (parseNotes l).map fun r => .setTone pt n r
  | 0x43, c :: rows => some (.setGlyph c rows)
  | 0x44, es => some (.setSegmentMap es)
  | 0x50, [] => some .enterService
  | 0x51, [] => some .leaveService
  | 0x52, [l, b] => some (.lampTest l b)
  | 0x53, [t, a0, a1, b0, b1] => some (.selfTest t (wordOf a0 a1) (wordOf b0 b1))
  | 0x54, [] => some .readTestResult
  | 0x55, [n, l] => some (.audition n l)
  | 0x56, [] => some .restoreSpeech
  | _, _ => none

/-- The request codes of the table of R174. -/
def requestCodes : List Byte :=
  [0x01, 0x02, 0x03, 0x04, 0x05, 0x06, 0x10, 0x11, 0x12, 0x13, 0x20, 0x21, 0x22, 0x23, 0x24, 0x25, 0x26, 0x27] ++
  [0x30, 0x31, 0x32, 0x33, 0x34, 0x35, 0x40, 0x41, 0x42, 0x43, 0x44, 0x50, 0x51, 0x52, 0x53, 0x54, 0x55, 0x56]

/-- The code of a request (R174). -/
def requestCode : Request → Byte
  | .bindRole _ => 0x01
  | .unbindRole => 0x02
  | .clientReset => 0x03
  | .readIdentity => 0x04
  | .fetchNotice => 0x05
  | .setAttentionMask _ => 0x06
  | .postPrompt _ => 0x10
  | .withdrawPrompt _ => 0x11
  | .queryPrompt _ => 0x12
  | .listPrompts _ => 0x13
  | .startSession _ => 0x20
  | .endSession _ => 0x21
  | .setLanguage _ _ => 0x22
  | .setSpeechMode _ _ => 0x23
  | .claimSide _ => 0x24
  | .releaseSide _ => 0x25
  | .setCycle _ _ _ _ _ => 0x26
  | .readCycle _ => 0x27
  | .writePage _ _ _ _ => 0x30
  | .readPage _ _ _ => 0x31
  | .readPostError => 0x32
  | .setWindow _ _ _ _ _ _ => 0x33
  | .setPhrase _ _ _ _ _ => 0x34
  | .readPhrase _ _ => 0x35
  | .setConfig _ => 0x40
  | .readConfig => 0x41
  | .setTone _ _ _ => 0x42
  | .setGlyph _ _ => 0x43
  | .setSegmentMap _ => 0x44
  | .enterService => 0x50
  | .leaveService => 0x51
  | .lampTest _ _ => 0x52
  | .selfTest _ _ _ => 0x53
  | .readTestResult => 0x54
  | .audition _ _ => 0x55
  | .restoreSpeech => 0x56

/-- A byte whose bits from `n` up are clear. -/
def clearFrom (n : Nat) (b : Byte) : Bool := decide (b.toNat < 2 ^ n)

/-- What R162 step 5 and R173 ask of a request's counts and flag bytes, once its length is right. -/
def wellSized : Request → Bool
  | .setAttentionMask m => decide (m.toNat < 2 ^ 12)
  | .postPrompt b =>
    decide (b.span.length ≤ 8) && clearFrom 5 b.responseSet &&
      (match b.page with
       | some g => decide (1 ≤ g.lines.length ∧ g.lines.length ≤ 2) &&
           g.lines.all (fun l => decide (1 ≤ l.length ∧ l.length ≤ 3))
       | none => true)
  | .setCycle _ presence _ _ _ => clearFrom 3 presence
  | .writePage _ _ length data => decide (data.length = length.toNat)
  | .setWindow _ _ flags _ _ _ => clearFrom 4 flags
  | .setPhrase _ _ flags _ _ => clearFrom 2 flags
  | .setTone _ count notes => decide (notes.length = count.toNat)
  | .setGlyph _ rows => decide (rows.length = 16)
  | .setSegmentMap entries => decide (entries.length = 32)
  | .bindRole _ | .unbindRole | .clientReset | .readIdentity | .fetchNotice | .withdrawPrompt _ | .queryPrompt _
  | .listPrompts _ | .startSession _ | .endSession _ | .setLanguage _ _ | .setSpeechMode _ _ | .claimSide _
  | .releaseSide _ | .readCycle _ | .readPage _ _ _ | .readPostError | .readPhrase _ _ | .setConfig _ | .readConfig
  | .enterService | .leaveService | .lampTest _ _ | .selfTest _ _ _ | .readTestResult | .audition _ _
  | .restoreSpeech => true

/-- The requests of the last row of R163, which only ROOM may send. -/
def roomOnly (code : Byte) : Bool :=
  decide (code = 0x33 ∨ code = 0x34 ∨ (0x40 ≤ code.toNat ∧ code.toNat ≤ 0x56))

/-- Whether a role may send a request (R163). -/
def rolePermits (r : Role) (code : Byte) : Bool :=
  match r with
  | .lowerDrum | .upperDrum => !roomOnly code
  | .payment => !roomOnly code && decide (code ≠ 0x26)
  | .room => decide (code ≠ 0x26)

/-- The requests a port that holds no role may send (R162 step 2). -/
def unboundPermits (code : Byte) : Bool := decide (code = 0x01 ∨ code = 0x03 ∨ code = 0x04)

/-- The requests of R162 step 4: LAMP TEST, SELF TEST and AUDITION. -/
def serviceOnly (code : Byte) : Bool := decide (code = 0x52 ∨ code = 0x53 ∨ code = 0x55)

/-- Whether a role may name a side in a request held to the sender's own side (R7, R55). -/
def roleReachesSide (r : Option Role) (sd : Side) : Bool :=
  match r with
  | some .lowerDrum => decide (sd = .lower)
  | some .upperDrum => decide (sd = .upper)
  | some .payment | some .room => true
  | none => false

end Sys2Proof.Machine
end

