-- ==== Sys2Proof/Machine/Flags.lean ====
section
/-! DEFINITION. Flag bytes of frames, both ways (R173, R174), and the bodies of the notices (8.6). -/

namespace Sys2Proof.Machine

/-- A byte from its low four bits, bit 0 first; the bits above have no meaning and are sent clear (log 12). -/
def flagByte (b0 b1 b2 b3 : Bool) : Byte :=
  (if b0 then 1 else 0) ||| (if b1 then 2 else 0) ||| (if b2 then 4 else 0) ||| (if b3 then 8 else 0)

/-- A notice as FETCH NOTICE returns it, with the number of notices left (R168, R173). -/
def noticeBytes (n : Notice) (left : Nat) : List Byte :=
  [byteOf n.kind.code, flagByte n.side.isSome (decide (n.side = some .upper)) n.tag.isSome n.test, n.tag.getD 0, n.detail1] ++
    bytesOf n.detail2 ++ [byteOf left]

/-- The flags of a directory entry (R174, SET PHRASE). -/
def entryFlags (e : DirEntry) : Byte := flagByte e.present e.text false false

/-- The outcome code, with the kind of the answer folded in (R24, R174). -/
def outcomeCode : Closing → Byte
  | .answered _ false => 1
  | .answered _ true => 2
  | .done => 3
  | .expired => 4
  | .withdrawn => 5
  | .replaced => 6
  | .unanswered => 7

/-- Detail 2 of a CLOSED notice: the key for ANSWERED, else 0 (R24). -/
def outcomeDetail : Closing → Word16
  | .answered k _ => (eventKeyCode (.key k)).setWidth 16
  | .done | .expired | .withdrawn | .replaced | .unanswered => 0

/-- The kind of the event of a key (R76). -/
def pressKind (hold : Bool) : EventKind := if hold then .hold else .press

/-- CLOSED for a prompt (R24). -/
def closedNotice (p : Prompt) (o : Closing) : Notice :=
  ⟨.closed, some p.side, some p.tag, outcomeCode o, outcomeDetail o, false⟩

/-- ANSWERED for a prompt (R21). -/
def answeredNotice (p : Prompt) (k : Key) (hold : Bool) : Notice :=
  ⟨.answered, some p.side, some p.tag, eventKeyCode (.key k), (eventKindCode (pressKind hold)).setWidth 16, false⟩

/-- KEY (R84, R85, R89). -/
def keyNotice (sd : Side) (k : EventKey) (kd : EventKind) (test : Bool) : Notice :=
  ⟨.key, some sd, none, eventKeyCode k, (eventKindCode kd).setWidth 16, test⟩

/-- PHASE (R71). -/
def phaseNotice (sd : Side) (old new : Phase) : Notice :=
  ⟨.phase, some sd, none, phaseCode old, (phaseCode new).setWidth 16, false⟩

/-- COUNTDOWN_ZERO (R70). -/
def countdownZeroNotice (sd : Side) : Notice := ⟨.countdownZero, some sd, none, 0, 0, false⟩

/-- SESSION (began), with the session's language (R60). -/
def beganNotice (sd : Side) (l : Fin 4) : Notice := ⟨.session, some sd, none, 1, (fourCode l).setWidth 16, false⟩

/-- SESSION (ended), with the cause (R60). -/
def endedNotice (sd : Side) (c : EndCause) : Notice :=
  ⟨.session, some sd, none, 2, (match c with | .idle => 1 | .request => 2), false⟩

/-- HOLD_LAPSED (R66). -/
def holdLapsedNotice (sd : Side) : Notice := ⟨.holdLapsed, some sd, none, 0, 0, false⟩

/-- POST_FAULT (R108). -/
def postFaultNotice (c : PostCause) (page : Nat) : Notice :=
  ⟨.postFault, none, none, causeCode c, BitVec.ofNat 16 page, false⟩

/-- PHRASE_FAULT, with MISSING 1 or DECODE 2, of a prompt's span or of an audition (R122, R129, R141). -/
def phraseFaultNotice (p : Option Prompt) (detail : Byte) (phrase : Nat) : Notice :=
  ⟨.phraseFault, p.map (·.side), p.map (·.tag), detail, BitVec.ofNat 16 phrase, false⟩

/-- SPEECH_STATE, with SILENCED 1 or RESTORED 2 and the self-reset count (R132, R133). -/
def speechStateNotice (detail : Byte) (count : Nat) : Notice :=
  ⟨.speechState, none, none, detail, BitVec.ofNat 16 count, false⟩

/-- TEST_DONE (R180, R181). -/
def testDoneNotice (test : Byte) (v : Verdict) : Notice :=
  ⟨.testDone, none, none, test, (verdictCode v).setWidth 16, false⟩

end Sys2Proof.Machine
end

