-- ==== Sys2Proof/Machine/Tone.lean ====
section
/-! DEFINITION. The Tone Generator and the level table (spec/06: R136 to R140). -/

namespace Sys2Proof.Machine

/-- The level table entry of a volume ID (R136). -/
def Levels.entry (l : Levels) (v : Fin 4) : Nat :=
  match v with
  | 0 => l.l0
  | 1 => l.l1
  | 2 => l.l2
  | 3 => l.l3

/-- The volume ID at which a side speaks: under ASSIST one higher, ID 3 staying at 3 (R61, R136). -/
def effectiveVolume (m : SpeechMode) (v : Fin 4) : Fin 4 :=
  if m = .assist then (match v with | 0 => 1 | 1 => 2 | 2 => 3 | 3 => 3) else v

/-- The attenuation a side's speech or tone takes at its start (R136, R137). -/
def State.sideLevel (s : State) (sd : Side) : Nat :=
  let x := (s.records sd).session
  s.cfg.levels.entry (effectiveVolume x.mode x.volume)

/-- The notes of a tone pattern (R138). -/
def State.pattern (s : State) (n : Nat) : List Note := mapGet [] s.tgn.patterns n

/-- Whether a request is dropped: a click or reject tone while the prompt tone of a SAFETY or FAULT prompt plays (R140). -/
def toneDropped (current : Option Tone) (o : Origin) : Bool :=
  match o, current with
  | .prompt _, _ => false
  | _, none => false
  | _, some t => decide (t.origin = .prompt .safety ∨ t.origin = .prompt .fault)

/-- A tone that starts: a copy of the pattern as it stands; an empty pattern is no tone (R139). -/
def startTone (notes : List Note) (o : Origin) (sd : Side) (level : Nat) : Option Tone :=
  match notes with
  | [] => none
  | n :: _ => some ⟨notes, o, sd, level, n.steps⟩

/-- The tone in play replaced; the end of its note, where that stood at its end, does not come (R140; log 36). -/
def ToneGenerator.replaced (g : ToneGenerator) (t : Option Tone) : ToneGenerator :=
  { g with current := t, noteLate := g.noteLate || g.current.any fun x => decide (x.left = 0) }

/-- A tone request (R139, R140). -/
def State.requestTone (s : State) (pattern : Nat) (sd : Side) (o : Origin) : State :=
  if toneDropped s.tgn.current o then s
  else { s with tgn := s.tgn.replaced (startTone (s.pattern pattern) o sd (s.sideLevel sd)) }

/-- The note in play ends: the next note follows, or the tone ends (R139). -/
def nextNote (t : Tone) : Option Tone :=
  match t.notes with
  | _ :: n :: rest => some { t with notes := n :: rest, left := n.steps }
  | _ => none

/-- SET TONE writes a pattern; a count of 0 empties it (R138). -/
def State.setPattern (s : State) (n : Nat) (notes : List Note) : State :=
  { s with tgn := { s.tgn with patterns := mapPut [] s.tgn.patterns n notes } }

end Sys2Proof.Machine
end

