-- ==== Sys2Proof/Machine/Store.lean ====
section
/-! DEFINITION. The Phrase Store Controller (spec/05): the directory and its resolutions, windows and translations, pending
writes, pins, buffered writes and what their end releases. The arbiter stands in Bus.lean. -/

namespace Sys2Proof.Machine

/-! ### Directory (R95 to R99) -/

/-- The key of an entry. -/
def entryKey (n : Nat) (l : Fin 4) : Nat := 4 * n + l.val

/-- The entry of a phrase in a language (R95). -/
def State.entry (s : State) (n : Nat) (l : Fin 4) : DirEntry := mapGet .absent s.psc.directory (entryKey n l)

/-- The resolution that an entry is, if it is present. -/
def resolutionOf (n : Nat) (l : Fin 4) (e : DirEntry) : Option Resolution :=
  if e.present then some ⟨n, l, e.first, e.blocks, e.text⟩ else none

/-- An entry exactly as named, without fallback (R141, R183). -/
def State.resolveExact (s : State) (n : Nat) (l : Fin 4) : Option Resolution := resolutionOf n l (s.entry n l)

/-- A phrase resolved for a language, falling back on the house language; none is MISSING (R97). -/
def State.resolve (s : State) (n : Nat) (l : Fin 4) : Option Resolution :=
  match s.resolveExact n l with
  | some r => some r
  | none => s.resolveExact n s.cfg.language

/-- SET PHRASE writes an entry whole (R98). -/
def State.setEntry (s : State) (n : Nat) (l : Fin 4) (e : DirEntry) : State :=
  { s with psc := { s.psc with directory := mapPut .absent s.psc.directory (entryKey n l) e } }

/-! ### Phrase records (R92) -/

/-- The page that holds a record slot of a phrase. -/
def recordPage (r : Resolution) (g : Nat) : Nat := (r.first + g / Config.slotsPerPage) % Config.pageCount

/-- The store slot that holds a record slot. -/
def recordSlot (g : Nat) : Nat := g % Config.slotsPerPage

/-- The pages of a phrase: the record takes 1 + b slots, eight to a page. -/
def phrasePages (r : Resolution) : List Nat :=
  (List.range ((1 + r.blocks + 7) / Config.slotsPerPage)).map fun i => (r.first + i) % Config.pageCount

/-! ### Windows (R100 to R102) -/

/-- Whether a window covers a client page. -/
def Window.covers (w : Window) (page : Nat) : Bool := w.enabled && decide (w.first ≤ page) && decide (page ≤ w.last)

/-- The window hit by a client page: window 0 first (R101). -/
def Windows.hit (w : Windows) (page : Nat) : Option Window :=
  if w.w0.covers page then some w.w0 else if w.w1.covers page then some w.w1 else none

/-- The physical page of a client page through a window (R101). -/
def Window.physical (w : Window) (page : Nat) : Nat := (page + w.offset) % Config.pageCount

/-- The window a port's client page hits. -/
def State.hit (s : State) (p : Port) (page : Nat) : Option Window := (s.portStore p).windows.hit page

/-! ### Pins and pending writes (R111 to R113) -/

/-- Whether a port has an accepted direct write on a page, not yet performed. -/
def directPending (l : PortLink) (page : Nat) : Bool :=
  match l.inWork with
  | some ⟨_, _, .write pg _ _⟩ => decide (pg = page)
  | _ => false

/-- Whether a port's buffered write is a pending write on a page. -/
def postedPending (x : PortStore) (page : Nat) : Bool :=
  match x.posted with
  | some w => decide (w.pendingOn = some page)
  | none => false

/-- Whether a page has a pending write, which keeps it from being pinned (R112). -/
def State.hasPending (s : State) (page : Nat) : Bool :=
  allPorts.any fun p => directPending (s.link p) page || postedPending (s.portStore p) page

/-- A buffered write in pin wait for a page returns to claiming when the pin goes (R107). -/
def releasePosted (page : Nat) (x : PortStore) : PortStore :=
  match x.posted with
  | some w => if w.cond = .pinWait ∧ w.pendingOn = some page then { x with posted := some { w with cond := .claiming } } else x
  | none => x

/-- The copy of a page marked as finished and moved behind the others, so that finished copies stand in the order they were
finished (R126). -/
def finishCopy (l : List PageCopy) (page : Nat) : List PageCopy :=
  (l.filter fun c => decide (c.page ≠ page)) ++ ((l.filter fun c => decide (c.page = page)).map fun c => { c with finished := true })

/-- The pin is removed, and what waits on it is released (R107, R111). The page counts as finished for the discards of R126 at every such
removal, an early stop included, the model's choice (log 47). -/
def State.unpin (s : State) : State :=
  match s.spe.pin with
  | none => s
  | some page =>
    { s with
      spe := { s.spe with pin := none, prefetch := finishCopy s.spe.prefetch page }
      psc := { s.psc with ports := s.psc.ports.mapAll (releasePosted page) } }

/-- A write performed to a page: the bytes stand in the store, and a copy of the page that is not pinned is dropped (R113). -/
def State.performWrite (s : State) (page offset : Nat) (data : List Byte) : State :=
  { s with
    psc := { s.psc with memory := writeBytes s.psc.memory page offset data }
    spe := { s.spe with prefetch := s.spe.prefetch.filter fun c => decide (c.page ≠ page ∨ s.spe.pin = some page) } }

/-! ### Page requests (R103 to R108) -/

/-- The field checks of a page request (R103); the count of the data is checked with the length of the body. -/
def pageFieldsOk (page offset : Word16) (length : Byte) : Bool :=
  decide (page.toNat ≤ 511 ∧ offset.toNat ≤ 511 ∧ 1 ≤ length.toNat ∧ length.toNat ≤ 64 ∧ offset.toNat + length.toNat ≤ 512)

/-- A WRITE PAGE taken while the port's buffer is empty (R105, R106). -/
def State.takeWrite (s : State) (p : Port) (page offset : Nat) (data : List Byte) : Reply × State :=
  match s.hit p page with
  | none => (.answer .noWindow [], s)
  | some w =>
    if w.posted then
      (.answer .ok [], s.onPortStore p fun x => { x with posted := some ⟨page, offset, data, .claiming, none⟩ })
    else if !w.write then (.answer .noWrite [], s)
    else if s.spe.pin = some (w.physical page) then (.answer .pagePinned [], s)
    else (.wait (.write (w.physical page) offset data), s)

/-- WRITE PAGE, held while the port's buffer holds a write (R105, R108). -/
def State.writePage (s : State) (p : Port) (page offset : Word16) (length : Byte) (data : List Byte) : Reply × State :=
  if !pageFieldsOk page offset length then (.answer .badField [], s)
  else if (s.portStore p).posted.isSome then (.wait (.heldWrite page.toNat offset.toNat data), s)
  else s.takeWrite p page.toNat offset.toNat data

/-- Whether the port's buffered write targets a physical page, with the windows as they stand (R108). -/
def State.ownWriteOn (s : State) (p : Port) (page : Nat) : Bool :=
  match (s.portStore p).posted with
  | none => false
  | some b =>
    match s.hit p b.page with
    | none => false
    | some w => decide (w.physical b.page = page)

/-- READ PAGE (R104, R108). -/
def State.readPage (s : State) (p : Port) (page offset : Word16) (length : Byte) : Reply × State :=
  if !pageFieldsOk page offset length then (.answer .badField [], s)
  else
    match s.hit p page.toNat with
    | none => (.answer .noWindow [], s)
    | some w =>
      if !w.read then (.answer .noRead [], s)
      else
        let pg := w.physical page.toNat
        (.wait (.read pg offset.toNat length.toNat (s.ownWriteOn p pg)), s)

/-- The port's buffer has become empty: a held write is taken as new, a waiting read goes on (R108). -/
def State.bufferEmptied (s : State) (p : Port) : State :=
  match (s.link p).inWork with
  | some ⟨c, q, .heldWrite page offset data⟩ =>
    let r := s.takeWrite p page offset data
    r.2.reply p c q r.1
  | some ⟨c, q, .read page offset length true⟩ => s.reply p c q (.wait (.read page offset length false))
  | _ => s

/-- A buffered write leaves the buffer (R106). -/
def State.dropPosted (s : State) (p : Port) : State := s.onPortStore p fun x => { x with posted := none }

/-- A buffered write fails: it leaves the buffer, the record is written and POST_FAULT is offered (R107, R108). -/
def State.failPosted (s : State) (p : Port) (w : Posted) (c : PostCause) : State :=
  let s1 := s.onPortStore p fun x => { x with posted := none, error := some ⟨c, w.page, w.offset⟩ }
  (s1.offer p (postFaultNotice c w.page)).bufferEmptied p

/-- A client reset's effect on the PSC: a write claiming or in pin wait is discarded, one under way stays until its transfer
ends, and the post error record is cleared (R115). -/
def State.resetPortStore (s : State) (p : Port) : State :=
  s.onPortStore p fun x =>
    { x with
      error := none
      posted := match x.posted with
        | some w => if w.cond = .underWay then some w else none
        | none => none }

end Sys2Proof.Machine
end

