-- ==== Sys2Proof/Machine/Display.lean ====
section
/-! DEFINITION. The Display Controller (spec/07): renders and line composing, icons, panel power, and what a refresh shows. -/

namespace Sys2Proof.Machine

/-! ### Composing lines (R144 to R146) -/

/-- The glyph code of a decimal digit (R144). -/
def digitGlyph (n : Nat) : Byte := byteOf (0x30 + n % 10)

/-- A value 0 to 999 in decimal digits without leading zeros (R144). -/
def numberGlyphs (v : Nat) : List Byte :=
  if v < 10 then [digitGlyph v]
  else if v < 100 then [digitGlyph (v / 10), digitGlyph v]
  else [digitGlyph (v / 100), digitGlyph (v / 10), digitGlyph v]

/-- Two digits (R145). -/
def twoDigits (n : Nat) : List Byte := [digitGlyph (n / 10), digitGlyph n]

/-- A countdown in seconds as MM:SS, or as H:MM:SS from 3,600 s on (R145). -/
def countdownGlyphs (c : Nat) : List Byte :=
  let ms := twoDigits (c / 60 % 60) ++ [0x3A] ++ twoDigits (c % 60)
  if c < 3600 then ms else [digitGlyph (c / 3600), 0x3A] ++ ms

/-- The glyphs of an item with the countdown as it stands (R145). -/
def itemGlyphs (countdown : Nat) : TextItem → List Byte
  | .glyphs l => l
  | .countdown => countdownGlyphs countdown

/-- A line cut to 23 glyphs and the cut mark, or filled up to 24 positions (R145). -/
def fitLine (l : List Byte) : List Byte :=
  if 24 < l.length then l.take 23 ++ [0x7E] else l ++ List.replicate (24 - l.length) 0x20

/-- A line of the buffer composed from its items (R145). -/
def composeLine (countdown : Nat) (items : List TextItem) : List Byte :=
  fitLine (List.intercalate [0x20] (items.map (itemGlyphs countdown)))

/-- The glyphs of a text slot: as many as its length byte says, at most 40 (R93, R144). -/
def textGlyphs (slot : List Byte) : List Byte :=
  match slot with
  | [] => []
  | n :: rest => rest.take (min n.toNat 40)

/-- Line 1 of the fallback page, OUT OF SERVICE; the codes of its letters are PRESUMED ASCII (R147; log 11). -/
def fallbackLine : List Byte :=
  fitLine [0x4F, 0x55, 0x54, 0x20, 0x4F, 0x46, 0x20, 0x53, 0x45, 0x52, 0x56, 0x49, 0x43, 0x45]

/-! ### Renders (R143 to R147) -/

/-- The items of one line among those formed. -/
def lineItems (n : Nat) (l : List (Nat × TextItem)) : List TextItem := (l.filter fun x => decide (x.1 = n)).map (·.2)

/-- A render of content PROMPT is committed (R145). -/
def State.commitRender (s : State) (sd : Side) (formed : List (Nat × TextItem)) : State :=
  let c := (s.records sd).cycle.countdown
  s.onRegion sd fun r =>
    { r with
      texts1 := lineItems 1 formed, texts2 := lineItems 2 formed
      line1 := composeLine c (lineItems 1 formed), line2 := composeLine c (lineItems 2 formed)
      builtin := false, render := none }

/-- Forms elements until one needs a store read: what is formed, what is left, and the page whose text slot is awaited (R144). -/
def State.formElems (s : State) (lang : Fin 4) :
    List (Nat × TextItem) → List (Nat × LineElem) → List (Nat × TextItem) × List (Nat × LineElem) × Option Nat
  | formed, [] => (formed, [], none)
  | formed, (n, .text ph) :: rest =>
    match s.resolve ph lang with
    | none => s.formElems lang (formed ++ [(n, .glyphs [])]) rest
    | some r =>
      if r.text then (formed, (n, .text ph) :: rest, some r.first)
      else s.formElems lang (formed ++ [(n, .glyphs [])]) rest
  | formed, (n, .number v) :: rest => s.formElems lang (formed ++ [(n, .glyphs (numberGlyphs v))]) rest
  | formed, (n, .countdown) :: rest => s.formElems lang (formed ++ [(n, .countdown)]) rest
  | formed, (n, .blank) :: rest => s.formElems lang (formed ++ [(n, .glyphs [])]) rest

/-- A render goes on: it waits for its next store read, or is committed (R144). -/
def State.continueRender (s : State) (sd : Side) (lang : Fin 4) (formed : List (Nat × TextItem))
    (todo : List (Nat × LineElem)) : State :=
  match s.formElems lang formed todo with
  | (formed', _, none) => s.commitRender sd formed'
  | (formed', todo', some page) => s.onRegion sd fun r => { r with render := some ⟨lang, formed', todo', page⟩ }

/-- The elements of a page record with their line numbers, line 1 before line 2 (R143). -/
def pageElems (g : PageRecord) : List (Nat × LineElem) :=
  match g.lines with
  | [] => []
  | l1 :: rest => (l1.map fun e => (1, e)) ++ (rest.flatten.map fun e => (2, e))

/-- A store read under way for an abandoned render completes and its bytes are discarded (R143). -/
def State.dropDisplayRead (s : State) (sd : Side) : State :=
  match s.psc.transfer with
  | some (.display sd' page false) =>
    if sd' = sd then { s with psc := { s.psc with transfer := some (.display sd' page true) } } else s
  | _ => s

/-- A render of a region starts from its content and the side's language, abandoning one in progress (R143). EMPTY and FALLBACK are
committed at once and both clear the element texts, which for FALLBACK is the model's choice (R145, R147; log 48). -/
def State.startRender (s : State) (sd : Side) : State :=
  let s := s.dropDisplayRead sd
  match (s.region sd).content with
  | .empty => s.onRegion sd fun r =>
      { r with texts1 := [], texts2 := [], line1 := Region.blankLine, line2 := Region.blankLine, builtin := false, render := none }
  | .fallback => s.onRegion sd fun r =>
      { r with texts1 := [], texts2 := [], line1 := fallbackLine, line2 := Region.blankLine, builtin := true, render := none }
  | .prompt _ g => s.continueRender sd (s.records sd).session.language [] (pageElems g)

/-- The Scheduler reports a region's content: content and masks follow at once and a render starts (R142, R143, R147). -/
def State.showContent (s : State) (sd : Side) (c : Content) : State :=
  (s.onRegion sd fun r =>
    { r with
      content := c
      icons := match c with | .prompt _ g => g.icons | .empty | .fallback => 0
      blink := match c with | .prompt _ g => g.blink | .empty | .fallback => 0 }).startRender sd

/-- Whether a region's content is a prompt. -/
def Region.showsPrompt (r : Region) : Bool :=
  match r.content with
  | .prompt _ _ => true
  | .empty | .fallback => false

/-- The side's language changed: the region is rendered again if its content is a prompt (R143). -/
def State.languageChanged (s : State) (sd : Side) : State :=
  if (s.region sd).showsPrompt then s.startRender sd else s

/-- A line recomposed if it holds a COUNTDOWN element (R146). -/
def recomposeLine (countdown : Nat) (items : List TextItem) (line : List Byte) : List Byte :=
  if TextItem.countdown ∈ items then composeLine countdown items else line

/-- The side's countdown changed: the lines that hold a COUNTDOWN element are composed again (R146). -/
def State.countdownChanged (s : State) (sd : Side) : State :=
  let c := (s.records sd).cycle.countdown
  if (s.region sd).showsPrompt then
    s.onRegion sd fun r => { r with line1 := recomposeLine c r.texts1 r.line1, line2 := recomposeLine c r.texts2 r.line2 }
  else s

/-! ### Panel power (R152) -/

/-- Whether a side is ACTIVE. -/
def State.anyActive (s : State) : Bool := (s.records .lower).session.active || (s.records .upper).session.active

/-- The panel goes DIM and its panel-off timer starts (R152). -/
def State.dimPanel (s : State) : State :=
  { s with dsp := { s.dsp with power := .dim, panelOff := some ⟨0, s.cfg.panelOff⟩ } }

/-- The panel goes ON and its panel-off timer stops; an end that falls together with it does not come (R152; log 36). -/
def Display.brightened (d : Display) : Display :=
  { d with power := .on, panelOff := none, offLate := d.offLate || d.panelOff.any Counting.ended }

/-- A side is reported ACTIVE (R152). -/
def State.sideActive (s : State) : State :=
  match s.dsp.power with
  | .dim => { s with dsp := s.dsp.brightened }
  | .off => (({ s with dsp := { s.dsp with power := .settling, settling := some 0 } }).startRender .lower).startRender .upper
  | .on | .settling => s

/-- A side is reported ASLEEP (R152). -/
def State.sideAsleep (s : State) : State :=
  match s.dsp.power with
  | .on => if s.anyActive then s else s.dimPanel
  | .dim | .off | .settling => s

/-- The settling timer reaches its end (R152). -/
def State.settled (s : State) : State :=
  let s := { s with dsp := { s.dsp with settling := none } }
  if s.anyActive then { s with dsp := { s.dsp with power := .on } } else s.dimPanel

/-! ### Icons (R149 to R151) -/

/-- The phase indicator of a phase, by its place in the mask order of R173; IDLE lights none. -/
def phaseIndicator : Phase → Option Nat
  | .idle => none
  | .fill => some 0
  | .wash => some 1
  | .rinse => some 2
  | .spin => some 3
  | .dry => some 4
  | .cool => some 5
  | .done => some 6
  | .fault => some 7

/-- SAFETY and FAULT prompts live on a side (R149). -/
def State.liveSafetyFault (s : State) (sd : Side) : Nat :=
  (s.ptb.prompts.filter fun p => decide (p.side = sd ∧ (p.cls = .safety ∨ p.cls = .fault))).length

/-- Whether a prompt is acknowledged (R19, R149). -/
def acknowledged (p : Prompt) : Bool := decide (p.state = .granted .acknowledged ∨ p.state = .held .acknowledged)

/-- SAFETY prompts live on a side that are not acknowledged (R149). -/
def State.unackSafety (s : State) (sd : Side) : Nat :=
  (s.ptb.prompts.filter fun p => decide (p.side = sd ∧ p.cls = .safety) && !acknowledged p).length

/-- Whether a logical indicator of a side, by its place in the mask order, is lit (R149). -/
def State.lit (s : State) (sd : Side) (i : Nat) : Bool :=
  let x := s.records sd
  let r := s.region sd
  r.icons.getLsbD i || decide (phaseIndicator x.cycle.phase = some i) ||
    (decide (i = 13) && decide (x.session.mode ≠ .off)) || (decide (i = 14) && decide (x.session.mode = .assist)) ||
    (decide (i = 15) && (decide (0 < s.liveSafetyFault sd) || decide (x.cycle.phase = .fault) || decide (r.content = .fallback)))

/-- Whether a lit indicator blinks (R151). -/
def State.blinks (s : State) (sd : Side) (i : Nat) : Bool :=
  s.lit sd i && ((s.region sd).blink.getLsbD i || (decide (i = 15) && decide (0 < s.unackSafety sd)))

/-- Whether an indicator lights its segment at a refresh (R150, R151). -/
def State.shows (s : State) (sd : Side) (i : Nat) : Bool := s.lit sd i && (!s.blinks sd i || s.dsp.blinkLit)

/-- Whether the indicator at a place of the segment map, LOWER's sixteen before UPPER's, lights its segment. -/
def State.showsAt (s : State) (k : Nat) : Bool := if k < 16 then s.shows .lower k else s.shows .upper (k - 16)

/-- The places of a map that name a segment. -/
def mapPlaces (segment : Nat) : Nat → List (Option Nat) → List Nat
  | _, [] => []
  | k, e :: rest => if e = some segment then k :: mapPlaces segment (k + 1) rest else mapPlaces segment (k + 1) rest

/-- Whether a segment is lit (R150). -/
def State.segmentLit (s : State) (g : Nat) : Bool := (mapPlaces g 0 s.dsp.map).any fun k => s.showsAt k

/-! ### Refresh (R148, R152, R154) -/

/-- The glyph code of a blank position (R145). -/
def blankGlyph : Byte := 0x20

/-- A row of dots of a glyph: through the loaded font, or through the built-in patterns, which leave a blank position dark and are
otherwise free (R147, R148; log 9). -/
def State.glyphRow (s : State) (builtin : Bool) (code : Byte) (row : Nat) : Byte :=
  if builtin then (if code = blankGlyph then 0 else Config.builtinRow code row)
  else if 0x20 ≤ code.toNat ∧ code.toNat ≤ 0xDF then (mapGet [] s.dsp.font code.toNat).getD row 0 else 0

/-- A dot row of a region: rows 0 to 15 are line 1, rows 16 to 31 line 2 (R148). -/
def State.regionRow (s : State) (sd : Side) (row : Nat) : List Byte :=
  let r := s.region sd
  if row < 16 then r.line1.map fun c => s.glyphRow r.builtin c row
  else r.line2.map fun c => s.glyphRow r.builtin c (row - 16)

/-- What the power state directs the panel to show (R152). -/
def State.poweredPanel (s : State) : Panel :=
  let rows := (List.range 32).map fun i => s.regionRow .lower i ++ s.regionRow .upper i
  let segments := (List.range 40).map s.segmentLit
  match s.dsp.power with
  | .on => ⟨rows, segments, .full, true⟩
  | .dim => ⟨rows, segments, .eighth, true⟩
  | .off => Panel.off
  | .settling => { Panel.off with backlight := .full, driver := true }

/-- What a refresh shows, the overrides included (R154). In the lamp test the driver is on (log 27). -/
def State.shownPanel (s : State) : Panel :=
  if s.dsp.lampTest then ⟨List.replicate 32 (List.replicate 48 0xFF), List.replicate 40 true, .full, true⟩
  else if s.dsp.blank then { Panel.off with driver := s.poweredPanel.driver }
  else s.poweredPanel

end Sys2Proof.Machine
end

