-- ==== Sys2Proof/Machine/Speech.lean ====
section
/-! DEFINITION. Who may speak and what is spoken: eligibility and ranking (spec/02: R29 to R33), the spans that owe speech and the
turns of the channel (R39 to R47), and the Speech Engine that plays them (spec/06). One event may carry speech through many
elements; `State.settle` takes these small steps until the channel waits for a block, a store slot, a pin or a candidate. -/

namespace Sys2Proof.Machine

/-! ### Eligibility and ranking (R29 to R32) -/

/-- Classes that no hold keeps out (R32). -/
def PClass.urgent (c : PClass) : Bool := decide (c = .safety ∨ c = .fault)

/-- The rank of a class, SAFETY highest (R29). -/
def PClass.rank : PClass → Nat
  | .safety => 5
  | .fault => 4
  | .action => 3
  | .confirm => 2
  | .info => 1
  | .status => 0

/-- Whether a live prompt is eligible (R32). -/
def State.eligible (s : State) (p : Prompt) : Bool :=
  match (s.records p.side).hold.holder with
  | some h => decide (h = p.owner) || p.cls.urgent
  | none => true

/-- The key of R29 but for the posting position: class, urgency and fair-turn mark. -/
structure RankKey where
  cls : Nat
  urgency : Nat
  mark : Nat
  deriving DecidableEq, Repr

/-- The fair-turn mark: 1 for a candidate whose owner is the resource's last owner, while fair turn is on (R29, R30). -/
def fairMark (fair : Bool) (last : Option Port) (owner : Option Port) : Nat :=
  if fair ∧ owner.isSome ∧ owner = last then 1 else 0

/-- The key of a prompt for a resource with a last owner. -/
def rankKey (fair : Bool) (last : Option Port) (p : Prompt) : RankKey := ⟨p.cls.rank, p.urgency, fairMark fair last (some p.owner)⟩

/-- Whether one key ranks higher before posting order decides (R29). -/
def RankKey.above (x y : RankKey) : Bool :=
  decide (y.cls < x.cls ∨ (x.cls = y.cls ∧ (y.urgency < x.urgency ∨ (x.urgency = y.urgency ∧ x.mark < y.mark))))

/-- The top-ranked of some prompts given in posting order: an earlier one stays unless a later one ranks above it (R29). -/
def topRanked (fair : Bool) (last : Option Port) (l : List Prompt) : Option Prompt :=
  l.foldl (fun best p =>
    match best with
    | none => some p
    | some b => if (rankKey fair last p).above (rankKey fair last b) then some p else some b) none

/-! ### What owes speech (R39 to R41) -/

/-- The speech mode of a side. -/
def State.modeOf (s : State) (sd : Side) : SpeechMode := (s.records sd).session.mode

/-- Whether a prompt's turn holds the channel. -/
def State.speaks (s : State) (slot : Nat) : Bool :=
  match s.sch.turn with
  | some (.prompt n _) => decide (n = slot)
  | _ => false

/-- The prompt and kind of the turn in progress. -/
def State.speaker (s : State) : Option (Prompt × TurnKind) :=
  match s.sch.turn with
  | some (.prompt n k) => (s.prompt n).map fun p => (p, k)
  | _ => none

/-- Whether a prompt is its side's pending replay. -/
def State.replayPending (s : State) (p : Prompt) : Bool := (s.schedule p.side).replay.any fun r => decide (r.slot = p.slot)

/-- The first delivery is owed (R39). -/
def owesFirst (p : Prompt) : Bool := decide (p.state = .granted .presenting ∧ p.elemIndex < p.span.length)

/-- A repeat is owed (R39). -/
def owesRepeat (p : Prompt) : Bool := decide (p.state = .granted .awaiting) && (p.repeatDue || p.repeatStarted)

/-- The turn kind a prompt owes; a replay goes before a repeat and after the first delivery (R39, R48; log 20). -/
def State.owes (s : State) (p : Prompt) : Option TurnKind :=
  match p.state with
  | .granted .presenting => if owesFirst p then some .first else none
  | .granted .awaiting => if s.replayPending p then some .replay else if owesRepeat p then some .again else none
  | .granted .dwelling | .granted .standing | .granted .acknowledged => if s.replayPending p then some .replay else none
  | .queued | .held _ => none

/-- Whether a prompt is a candidate for the channel (R39). -/
def State.wantsChannel (s : State) (p : Prompt) : Bool :=
  (s.owes p).isSome && s.eligible p && (p.page.isNone || decide ((s.schedule p.side).owner = some p.slot)) &&
    decide (s.modeOf p.side ≠ .off)

/-- Speech cannot be given on a side at all (R40, R41). -/
def State.mute (s : State) (sd : Side) : Bool := decide (s.modeOf sd = .off ∨ s.spe.channel = .silenced)

/-- A first delivery counts as delivered (R40). -/
def State.barred (s : State) (p : Prompt) : Bool := s.mute p.side || (!(s.records p.side).session.active && !p.cls.urgent)

/-! ### Delivery (R16 to R18) -/

/-- Where a prompt goes on its span's first delivery (R16). -/
def afterDelivery (p : Prompt) : Active :=
  match p.cls with
  | .action | .confirm => .awaiting
  | .safety | .fault => if p.responseSet = 0 then .acknowledged else .awaiting
  | .info => .dwelling
  | .status => .standing

/-- The repeat timer as it starts (R16, R17): it runs while repeats are left and the span is not empty. -/
def startedRepeat (p : Prompt) : Option Nat :=
  if 0 < p.repeatsLeft ∧ p.span ≠ [] then some (p.repeatInterval * Config.ticksPerSecond) else none

/-- Whether a repeat timer runs and stands at its end (R17). -/
def repeatEnds (p : Prompt) : Bool := decide (p.repeatTimer = some 0)

/-- Whether the dwell timer runs: in DWELLING, but not while the prompt's replay holds the channel (R18, R48); a replay that was
preempted and waits to go on does not stop it, which is the model's choice (log 37). -/
def State.dwellRuns (s : State) (p : Prompt) : Bool :=
  decide (p.state = .granted .dwelling) && decide (s.sch.turn ≠ some (.prompt p.slot .replay))

/-- The cursor of a span that has been delivered (R16, R187). -/
def played (p : Prompt) : Prompt := { p with elemIndex := p.span.length, spokenOnce := true }

/-- The timers of a prompt on entry to the state after delivery (R16). -/
def enterAfter (p : Prompt) : Prompt :=
  match afterDelivery p with
  | .awaiting => { p with repeatTimer := startedRepeat p }
  | .dwelling => { p with dwellLeft := p.dwell * Config.ticksPerSecond }
  | .presenting | .standing | .acknowledged => p

/-- Span delivered for a first delivery (R16); for a prompt displaced meanwhile it acts on the resume state (log 17). -/
def spanDelivered (p : Prompt) : Prompt :=
  match p.state with
  | .granted .presenting => { enterAfter (played p) with state := .granted (afterDelivery p) }
  | .held .presenting => { enterAfter (played p) with state := .held (afterDelivery p) }
  | _ => played p

/-- Span delivered at the end of a repeat (R17). -/
def repeatDelivered (p : Prompt) : Prompt :=
  { played p with repeatDue := false, repeatStarted := false, repeatTimer := startedRepeat p }

/-- The table starts a repeat (R17). -/
def startRepeat (p : Prompt) : Prompt :=
  { p with elemIndex := 0, repeatsLeft := p.repeatsLeft - 1, repeatDue := false, repeatStarted := true }

/-- A repeat taken as made where speech cannot be given (R41). -/
def repeatMade (p : Prompt) : Prompt := repeatDelivered (if p.repeatStarted then p else startRepeat p)

/-- The repeat timer that a replay stopped runs again when the replay is over (R17, R48; log 21). -/
def replayOver (p : Prompt) : Prompt :=
  if p.state = .granted .awaiting ∨ p.state = .held .awaiting then { p with repeatTimer := startedRepeat p } else p

/-- A repeat that counts as delivered where speech cannot be given (R41): one that is due or has started in AWAITING, and one that has
started in a prompt displaced meanwhile. The repeat of a HELD prompt that has not started stays due (log 18). -/
def repeatInVain (p : Prompt) : Bool := owesRepeat p || (decide (p.state = .held .awaiting) && p.repeatStarted)

/-- What R40 and R41 do to a prompt that is not the speaker. -/
def State.relieved (s : State) (p : Prompt) : Prompt :=
  if s.speaks p.slot then p
  else if owesFirst p && s.barred p then spanDelivered p
  else if repeatInVain p && s.mute p.side then repeatMade p
  else p

/-- Whether R40 or R41 has something to do. -/
def State.owesInVain (s : State) : Bool :=
  s.ptb.prompts.any fun p =>
    !s.speaks p.slot && ((owesFirst p && s.barred p) || (repeatInVain p && s.mute p.side))

/-- R40 and R41 on every prompt. -/
def State.relieve (s : State) : State := s.setPrompts (s.ptb.prompts.map s.relieved)

/-! ### Turns (R42, R43) -/

/-- The channel's candidates among the prompts, in posting order. -/
def State.candidates (s : State) : List Prompt := s.ptb.prompts.filter fun p => !s.speaks p.slot && s.wantsChannel p

/-- Whether an audition waits for the channel (R49). -/
def State.auditionWaits (s : State) : Bool := s.stu.audition.isSome && decide (s.sch.turn ≠ some .audition)

/-- The key of an audition: SAFETY, urgency 3, owned by the ROOM port (R49). -/
def State.auditionKey (s : State) : RankKey :=
  ⟨PClass.safety.rank, 3, fairMark s.cfg.fairTurn s.sch.lastChannel (s.portOf .room)⟩

/-- The turn of the top-ranked candidate; an audition ranks below every prompt that it does not outrank (R42, R49). -/
def State.topTurn (s : State) : Option Turn :=
  let top := topRanked s.cfg.fairTurn s.sch.lastChannel s.candidates
  let turn := top.bind fun p => (s.owes p).map fun k => Turn.prompt p.slot k
  if s.auditionWaits then
    match top with
    | none => some .audition
    | some p => if s.auditionKey.above (rankKey s.cfg.fairTurn s.sch.lastChannel p) then some .audition else turn
  else turn

/-- The countdown in whole minutes, rounded up (R120). -/
def latchMinutes (countdown : Nat) : Nat := (countdown + 59) / 60

/-- Whether a turn of a kind begins a delivery (R120). -/
def State.begins (s : State) (p : Prompt) : TurnKind → Bool
  | .first => !p.hasSpoken
  | .again => !p.repeatStarted
  | .replay => (s.schedule p.side).replay.any fun r => !r.started

/-- A prompt as its turn is granted: a repeat or a replay is started, and the latch is taken if a delivery begins (R17, R42,
R48, R120). -/
def State.grantedPrompt (s : State) (kind : TurnKind) (p : Prompt) : Prompt :=
  let b := s.begins p kind
  let p1 :=
    match kind with
    | .first => p
    | .again => if b then startRepeat p else p
    | .replay =>
      if b then
        (if p.state = PState.granted Active.awaiting then { p with elemIndex := 0, repeatTimer := none, repeatDue := false, repeatStarted := false }
         else { p with elemIndex := 0 })
      else p
  let latch := if b ∧ SpanElem.countdown ∈ p.span then some (latchMinutes (s.records p.side).cycle.countdown) else p1.latch
  { p1 with hasSpoken := true, latch := latch }

/-- The turn is recorded and the channel is SPEAKING (R42). -/
def State.recordTurn (s : State) (t : Turn) : State :=
  { s with
    sch := { s.sch with turn := some t, preempt := false, safetyCut := false, ending := none }
    spe := { s.spe with channel := .speaking, element := none } }

/-- A side's pending replay is granted (R48). -/
def State.startReplay (s : State) (sd : Side) : State :=
  s.onSchedule sd fun x => { x with replay := x.replay.map fun r => { r with started := true } }

/-- Whether a turn's grant stops a repeat timer that stands at its end: a replay does (R48). -/
def State.stopsRepeat (s : State) (p : Prompt) (kind : TurnKind) : Bool :=
  decide (kind = .replay ∧ p.state = .granted .awaiting) && s.begins p kind && repeatEnds p

/-- A repeat that falls together with the replay that stops its timer does not come (R48; log 36). -/
def State.repeatStopped (s : State) (slot : Nat) : State :=
  { s with late := { s.late with repeats := s.late.repeats ++ [slot] } }

/-- A turn is granted (R42). -/
def State.grantTurn (s : State) (t : Turn) : State :=
  match t with
  | .audition => s.recordTurn .audition
  | .prompt slot kind =>
    match s.prompt slot with
    | none => s
    | some p =>
      let s1 := s.onPrompt slot (s.grantedPrompt kind)
      let s2 := if kind = .replay then s1.startReplay p.side else s1
      let s3 := if s.stopsRepeat p kind then s2.repeatStopped slot else s2
      s3.recordTurn (.prompt slot kind)

/-- The top-ranked candidate, if any, is granted (R42). -/
def State.grantTop (s : State) : State :=
  match s.topTurn with
  | some t => s.grantTurn t
  | none => s

/-- The output of a turn ends: pin and element go, the turn is none and the channel IDLE (R43, R135). -/
def State.clearTurn (s : State) : State :=
  let s := s.unpin
  { s with
    sch := { s.sch with turn := none, preempt := false, safetyCut := false, ending := none }
    spe := { s.spe with channel := .idle, element := none } }

/-- The channel's last owner (R31). -/
def State.setLastChannel (s : State) (o : Option Port) : State := { s with sch := { s.sch with lastChannel := o } }

/-- A turn ends other than by preemption: the record is set before the channel is granted again (R31, R43). -/
def State.endTurn (s : State) (owner : Port) : State := s.clearTurn.setLastChannel (some owner)

/-- Whether the replay that a prompt's side has pending is this prompt's and has been granted (R48). -/
def State.replayGranted (s : State) (p : Prompt) : Bool :=
  (s.schedule p.side).replay.any fun r => decide (r.slot = p.slot) && r.started

/-- A preempted replay that is no longer pending is over, also where HELP has recorded a new one; one still pending keeps the repeat timer
stopped (R48; logs 21 and 50). -/
def State.replayCut (s : State) (p : Prompt) (kind : TurnKind) : State :=
  if kind = .replay ∧ !s.replayGranted p then s.onPrompt p.slot replayOver else s

/-- A preempted turn ends: what counts as delivered without the channel does (R40, R41), and the channel is granted with the record
as it stood, which is set afterwards (R31, R43). An ending noted for the element's end is dropped, the span is left owed, and it counts as
delivered at once where the condition of R40 or R41 still stands, the model's choice (log 57). -/
def State.preemptTurn (s : State) (p : Prompt) (kind : TurnKind) : State :=
  (s.replayCut p kind).clearTurn.relieve.grantTop.setLastChannel (some p.owner)

/-- The end of a replay's delivery: a further replay is owed, or none is pending (R48). A replay that HELP has recorded while the turn of a
cleared one ran out, and that has not been granted, stays pending at that turn's end, the model's choice (log 50). -/
def replayEnded (slot : Nat) (x : SideSchedule) : SideSchedule :=
  match x.replay with
  | some r => if r.slot = slot ∧ r.started then { x with replay := if r.further then some ⟨slot, false, false⟩ else none } else x
  | none => x

/-- The table takes a turn's span as delivered (R16, R17, R48). -/
def State.spanDone (s : State) (p : Prompt) (kind : TurnKind) : State :=
  match kind with
  | .first => s.onPrompt p.slot spanDelivered
  | .again => s.onPrompt p.slot repeatDelivered
  | .replay => (s.onPrompt p.slot fun x => replayOver (played x)).onSchedule p.side (replayEnded p.slot)

/-- A turn ends with its span delivered (R43). -/
def State.deliverTurn (s : State) (p : Prompt) (kind : TurnKind) : State := (s.spanDone p kind).endTurn p.owner

/-- An audition ends with a verdict: TEST_DONE to the ROOM port, the channel's last owner is ROOM (R141, R180). -/
def State.endAudition (s : State) (v : Verdict) : State :=
  let s1 := s.clearTurn.setLastChannel (s.portOf .room)
  ({ s1 with stu := { s1.stu with audition := none } }).offerRoom (testDoneNotice auditionCode v)

/-! ### Elements (R121 to R125) -/

/-- The number-vocabulary words of a value 0 to 999 (R123). -/
def numberWords (v : Nat) : List Nat :=
  let r := v % 100
  (if 100 ≤ v then [224 + v / 100, 252] else []) ++
    (if r < 20 then (if r = 0 ∧ 100 ≤ v then [] else [224 + r])
     else [244 + (r / 10 - 2)] ++ (if r % 10 = 0 then [] else [224 + r % 10]))

/-- The words of an element: the phrase, the number, or the latched minutes with their unit (R122 to R124). -/
def elementWords (latch : Option Nat) : SpanElem → List Nat
  | .phrase n => [n]
  | .number v => numberWords v
  | .countdown =>
    let m := latch.getD 0
    numberWords m ++ [if m = 1 then 253 else 254]
  | .pause _ => []

/-- How an element starts to play: a pause lasts twice as long under ASSIST (R125). -/
def elementStart (mode : SpeechMode) : SpanElem → Playing
  | .pause ms => .pause (if mode = .assist then 2 * ms else ms)
  | .phrase _ | .number _ | .countdown => .word

/-- The copies kept at an element start: those that match a resolution made then and lie within its phrase (R114). -/
def keptCopies (words : List SpokenWord) (l : List PageCopy) : List PageCopy :=
  l.filter fun c => words.any fun w =>
    match w.res with
    | some r => decide (r.first = c.res.first ∧ r.blocks = c.res.blocks ∧ c.page ∈ phrasePages r)
    | none => false

/-- An element starts with words already resolved (R114, R121). -/
def State.playElement (s : State) (words : List SpokenWord) (start : Playing) (level : Nat) : State :=
  { s with spe := { s.spe with
      element := some ⟨words, words, start, level, 0, 0, []⟩
      prefetch := keptCopies words s.spe.prefetch } }

/-- The element named by the element index starts (R121). -/
def State.startElement (s : State) (p : Prompt) (e : SpanElem) : State :=
  let x := (s.records p.side).session
  let words := (elementWords p.latch e).map fun n => SpokenWord.mk n (s.resolve n x.language)
  s.playElement words (elementStart x.mode e) (s.sideLevel p.side)

/-- An audition's one phrase starts, resolved exactly as named, at the level of volume ID 3 (R141). -/
def State.startAudition (s : State) (a : Audition) : State :=
  s.playElement [⟨a.phrase, s.resolveExact a.phrase a.language⟩] .word (s.cfg.levels.entry 3)

/-- The element in play, changed. -/
def State.onElement (s : State) (f : ElementInPlay → ElementInPlay) : State :=
  { s with spe := { s.spe with element := s.spe.element.map f } }

/-- The next word of the element (R123). -/
def nextWord (e : ElementInPlay) : ElementInPlay := { e with rest := e.rest.tail, at_ := .word }

/-- Whether a candidate of a higher class than the speaker's stands (R44). -/
def State.higherStands (s : State) (p : Prompt) : Bool := s.candidates.any fun c => decide (p.cls.rank < c.cls.rank)

/-- Whether a SAFETY candidate stands; an audition counts as one (R45). -/
def State.safetyStands (s : State) : Bool := s.auditionWaits || s.candidates.any fun c => decide (c.cls = .safety)

/-- The speaker's turn ends at an element's end because it stopped qualifying; the index names the element again (R43, R46). -/
def State.loseTurn (s : State) (p : Prompt) (kind : TurnKind) : State :=
  let s1 := if kind = .replay then s.onPrompt p.slot replayOver else s
  s1.endTurn p.owner

/-- An element of a prompt's turn ends (R43, R44, R46, R121). -/
def State.elementEnded (s : State) (p : Prompt) (kind : TurnKind) : State :=
  match s.sch.ending with
  | some .lost => s.loseTurn p kind
  | some .delivered => s.deliverTurn p kind
  | none =>
    if s.sch.preempt ∧ s.higherStands p then s.preemptTurn p kind
    else
      let s1 := { s with sch := { s.sch with preempt := false } }
      if p.elemIndex + 1 < p.span.length then
        let s2 := s1.onPrompt p.slot fun x => { x with elemIndex := x.elemIndex + 1 }
        { s2 with spe := { s2.spe with element := none } }
      else s1.deliverTurn p kind

/-! ### Blocks (R126 to R131) -/

/-- The step sizes: the integer part of 12 x 1.12 ^ i (R128). -/
def stepSize (i : Nat) : Nat := 12 * 112 ^ i / 100 ^ i

/-- The step index after a code of magnitude m (R128). -/
def nextStepIndex (i m : Nat) : Nat :=
  if m ≤ 2 then i - 1
  else if m ≤ 4 then i
  else if m = 5 then min 63 (i + 2)
  else if m = 6 then min 63 (i + 3)
  else min 63 (i + 5)

/-- A sum limited to the range of samples (R128). -/
def limitSample (x : Int) : Int := max (-32767) (min 32767 x)

/-- The sample after a four-bit code (R128). -/
def nextSample (x : Int) (i code : Nat) : Int :=
  let m := code % 8
  let d : Int := (stepSize i * (2 * m + 1) / 8 : Nat)
  limitSample (if 8 ≤ code then x - d else x + d)

/-- The codes of a block in playing order: the low four bits of each byte before its high four (R94, R128). -/
def blockCodes (l : List Byte) : List Nat := l.flatMap fun b => [b.toNat % 16, b.toNat / 16]

/-- The samples of codes from a sample and a step index, and the decoder's state after them (R128). -/
def decodeCodes (x : Int) (i : Nat) : List Nat → List Int × Int × Nat
  | [] => ([], x, i)
  | c :: rest =>
    let y := nextSample x i c
    let r := decodeCodes y (nextStepIndex i (c % 8)) rest
    (y :: r.1, r.2)

/-- The initial predictor of a block, two's complement (R94). -/
def blockPredictor (l : List Byte) : Int := (wordOf (l.getD 0 0) (l.getD 1 0)).toInt

/-- The step index of a block (R94). -/
def blockStep (l : List Byte) : Nat := (l.getD 2 0).toNat

/-- A faulted block: step index above 63, or a check byte that is not the low 8 bits of the sum of the code bytes (R129). -/
def blockFaulted (l : List Byte) : Bool :=
  decide (63 < blockStep l) || decide ((l.getD 3 0).toNat ≠ ((l.drop 4).map (·.toNat)).sum % 256)

/-- The slot of a copy that holds a block of a phrase, if it has been fetched. -/
def fetchedSlot (l : List PageCopy) (page slot : Nat) : Option (List Byte) :=
  (l.find? fun c => decide (c.page = page)).bind fun c => (c.slots.find? fun x => decide (x.1 = slot)).map (·.2)

/-- A block begins to play: it is decoded from its own predictor and step index (R128). -/
def State.playBlock (s : State) (k : Nat) (bytes : List Byte) : State :=
  let d := decodeCodes (blockPredictor bytes) (blockStep bytes) (blockCodes (bytes.drop 4))
  s.onElement fun e => { e with at_ := .block k, samples := d.1, sample := d.2.1, stepIndex := d.2.2 }

/-- A speech self-reset (R51, R131). -/
def State.selfReset (s : State) (p : Prompt) (kind : TurnKind) : State :=
  let s := (s.spanDone p kind).endTurn p.owner
  { s with spe := { s.spe with
      prefetch := [], faults := 0, resets := min 255 (s.spe.resets + 1), channel := .recovering, recovery := some 0 } }

/-- A prompt's phrase is abandoned at a faulted block: PHRASE_FAULT, and the count, which may bring a self-reset (R129, R130,
R134). -/
def State.faultedPhrase (s : State) (p : Prompt) (kind : TurnKind) (phrase : Nat) : State :=
  let s1 := s.unpin.offer p.owner (phraseFaultNotice (some p) 2 phrase)
  if s.stu.flag then s1.onElement nextWord
  else if 3 ≤ s.spe.faults + 1 then s1.selfReset p kind
  else ({ s1 with spe := { s1.spe with faults := s.spe.faults + 1 } }).onElement nextWord

/-- A phrase played to its end is clean and clears both counts, out of service mode and in a prompt's turn (R130, R134). -/
def State.cleanPhrase (s : State) : State :=
  if s.stu.flag ∨ s.sch.turn = some .audition then s else { s with spe := { s.spe with faults := 0, resets := 0 } }

/-- The next block is to begin: its page is pinned, its slot fetched, the block checked (R111, R112, R127, R129). None while it
waits. The faulted branch is the turn's own. -/
def State.beginBlock (s : State) (r : Resolution) (k : Nat) (faulted : State) : Option State :=
  let page := recordPage r (k + 1)
  if s.spe.pin ≠ some page then
    (if s.hasPending page then none else some { s with spe := { s.spe with pin := some page } })
  else
    match fetchedSlot s.spe.prefetch page (recordSlot (k + 1)) with
    | none => none
    | some bytes => if blockFaulted bytes then some faulted else some (s.playBlock k bytes)

/-- One small step of a prompt's element; none while it waits for a block, a slot or a pin (R121 to R129). -/
def State.promptElement (s : State) (p : Prompt) (kind : TurnKind) (e : ElementInPlay) : Option State :=
  match e.at_, e.rest with
  | .pause _, _ => none
  | .block _, _ => none
  | _, [] => some (s.elementEnded p kind)
  | .word, w :: _ =>
    match w.res with
    | none => some ((s.offer p.owner (phraseFaultNotice (some p) 1 w.phrase)).onElement nextWord)
    | some r => some (s.onElement fun e => if r.blocks = 0 then nextWord e else { e with at_ := .ready 0 })
  | .ready k, w :: _ =>
    match w.res with
    | none => some (s.onElement nextWord)
    | some r => s.beginBlock r k (s.faultedPhrase p kind w.phrase)

/-- One small step of an audition; none while it waits (R141, R180). -/
def State.auditionElement (s : State) (e : ElementInPlay) : Option State :=
  match e.at_, e.rest with
  | .pause _, _ => none
  | .block _, _ => none
  | _, [] => some (s.endAudition .pass)
  | .word, w :: _ =>
    match w.res with
    | none => some ((s.offerRoom (phraseFaultNotice none 1 w.phrase)).endAudition .fail)
    | some r => some (s.onElement fun e => if r.blocks = 0 then nextWord e else { e with at_ := .ready 0 })
  | .ready k, w :: _ =>
    match w.res with
    | none => some (s.endAudition .fail)
    | some r => s.beginBlock r k ((s.offerRoom (phraseFaultNotice none 2 w.phrase)).endAudition .fail)

/-! ### Preemption (R44, R45) -/

/-- Whether a block or a piece of a pause is in play (R135). -/
def ElementInPlay.sounding (e : ElementInPlay) : Bool :=
  match e.at_ with
  | .block _ | .pause _ => true
  | .word | .ready _ => false

/-- What a standing candidate does to the turn of a prompt: a SAFETY candidate takes it at the end of the block in play, one of
a higher class at the end of the element (R44, R45). None if nothing is to be noted. -/
def State.notePreemption (s : State) (p : Prompt) : Option State :=
  if p.cls = .safety ∨ s.sch.safetyCut then none
  else if s.safetyStands then some { s with sch := { s.sch with safetyCut := true, preempt := false } }
  else if !s.sch.preempt ∧ s.higherStands p then some { s with sch := { s.sch with preempt := true } }
  else none

/-! ### Small steps -/

/-- One small step of a prompt's turn. A turn without an element left, which only the HELP replay of an empty span is (R86), counts as
delivered at once, the model's choice (log 51). -/
def State.promptStep (s : State) (p : Prompt) (kind : TurnKind) : Option State :=
  match s.notePreemption p with
  | some s' => some s'
  | none =>
    match s.spe.element with
    | none =>
      if s.sch.safetyCut then some (s.preemptTurn p kind)
      else
        match p.span[p.elemIndex]? with
        | some e => some (s.startElement p e)
        | none => some (s.deliverTurn p kind)
    | some e =>
      if s.sch.safetyCut ∧ !e.sounding then some (s.preemptTurn p kind) else s.promptElement p kind e

/-- One small step of an audition's turn. -/
def State.auditionStep (s : State) : Option State :=
  match s.stu.audition, s.spe.element with
  | none, _ => some s.clearTurn
  | some a, none => some (s.startAudition a)
  | some _, some e => s.auditionElement e

/-- One small step of scheduling and speech; none when the channel waits (R40 to R42, R121). -/
def State.speechStep (s : State) : Option State :=
  if s.owesInVain then some s.relieve
  else
    match s.spe.channel with
    | .idle => s.topTurn.map s.grantTurn
    | .recovering | .silenced => none
    | .speaking =>
      match s.sch.turn with
      | some .audition => s.auditionStep
      | some (.prompt slot kind) =>
        match s.prompt slot with
        | some p => s.promptStep p kind
        | none => some s.clearTurn
      | none => some s.clearTurn

/-- So many small steps, stopping when the channel waits. -/
def State.settleSteps : Nat → State → State
  | 0, s => s
  | n + 1, s =>
    match s.speechStep with
    | some s' => State.settleSteps n s'
    | none => s

/-- More small steps than one event can hold (log 25). -/
def settleBound : Nat := 65536

/-- The Scheduler and the Speech Engine go on until the channel waits (R42, R121). -/
def State.settle (s : State) : State := State.settleSteps settleBound s

/-! ### Stops at once (R46, R135) -/

/-- A prompt's span stops at once if it is playing: the index goes to the span's length and the channel is released. -/
def State.stopSpan (s : State) (slot : Nat) : State :=
  if s.speaks slot then
    match s.prompt slot with
    | some p => (s.onPrompt slot fun x => { x with elemIndex := x.span.length }).endTurn p.owner
    | none => s
  else s

/-- The rest of a side's speaking span counts as delivered at once (R46, R61). -/
def State.deliverSide (s : State) (sd : Side) : State :=
  match s.speaker with
  | some (p, k) => if p.side = sd then s.deliverTurn p k else s
  | none => s

/-- A side's pending replay is cleared (R41, R48); one that was cut short before lets the repeat timer run again (log 21). -/
def State.clearReplay (s : State) (sd : Side) : State :=
  match (s.schedule sd).replay with
  | none => s
  | some r =>
    let s1 := if r.started && !s.speaks r.slot then s.onPrompt r.slot replayOver else s
    s1.onSchedule sd fun x => { x with replay := none }

/-- The conditions of R40 and R41 arise for the speaker: its span counts as delivered at the end of the current element. -/
def State.markDelivered (s : State) (sd : Side) : State :=
  match s.speaker with
  | some (p, k) =>
    let hit := decide (s.modeOf sd = .off) || (decide (k = .first) && owesFirst p && s.barred p)
    if p.side = sd ∧ hit ∧ s.sch.ending = none then { s with sch := { s.sch with ending := some .delivered } } else s
  | none => s

end Sys2Proof.Machine
end

