-- ==== Sys2Proof/Machine/Scheduler.lean ====
section
/-! DEFINITION. The Presentation Scheduler's choice of region owners with its grants and displacements (spec/02: R33 to R38), and
the closures, removals and answers of the Prompt Table that make it choose again (spec/01: R15, R19 to R25). -/

namespace Sys2Proof.Machine

/-! ### Displacement (R19, R36) -/

/-- A displaced prompt: HELD with its resume state, the span cursor kept (R19). -/
def displaced (p : Prompt) : Prompt :=
  match p.state with
  | .granted a => { p with state := .held a }
  | .queued | .held _ => p

/-- A speaker stops qualifying: its turn ends at the end of the current element (R46; log 22). -/
def State.loseSpeaker (s : State) (slot : Nat) : State :=
  if s.speaks slot then { s with sch := { s.sch with ending := some .lost } } else s

/-- A pending replay that names a prompt is cleared (R48). -/
def State.dropReplay (s : State) (sd : Side) (slot : Nat) : State :=
  if (s.schedule sd).replay.any (fun r => decide (r.slot = slot)) then s.clearReplay sd else s

/-- A displacement; one that reaches a prompt in QUEUED or HELD is not taken (R19). -/
def State.displace (s : State) (slot : Nat) : State :=
  match s.prompt slot with
  | none => s
  | some p =>
    match p.state with
    | .granted _ => ((s.onPrompt slot displaced).loseSpeaker slot).dropReplay p.side slot
    | .queued | .held _ => s

/-! ### Grants (R15) -/

/-- The state a grant leads to; a grant that reaches a granted prompt is not taken (R15). -/
def grantedState : PState → Option Active
  | .queued => some .presenting
  | .held a => some a
  | .granted _ => none

/-- The tone of a prompt that enters PRESENTING is requested (R15). -/
def State.soundTone (s : State) (p : Prompt) : State :=
  match p.tone with
  | some t => s.requestTone t p.side (.prompt p.cls)
  | none => s

/-- A prompt whose span is empty is delivered on entry to PRESENTING (R15). -/
def emptyDelivered (p : Prompt) : Prompt := if p.span = [] then spanDelivered p else p

/-- A grant (R15, R19). -/
def State.grantPrompt (s : State) (slot : Nat) : State :=
  match s.prompt slot with
  | none => s
  | some p =>
    match grantedState p.state with
    | none => s
    | some a =>
      let s1 := s.onPrompt slot fun x => { x with state := .granted a }
      if a = .presenting then (s1.soundTone p).onPrompt slot emptyDelivered else s1

/-! ### Regions (R34 to R38) -/

/-- A region's last owner (R31). -/
def State.setLastOwner (s : State) (sd : Side) (o : Port) : State := s.onSchedule sd fun x => { x with lastOwner := some o }

/-- The candidates for a side's region (R34). -/
def State.regionCandidates (s : State) (sd : Side) : List Prompt :=
  s.ptb.prompts.filter fun p => decide (p.side = sd) && p.page.isSome && s.eligible p

/-- The top-ranked candidate for a side's region (R29, R34). -/
def State.regionTop (s : State) (sd : Side) : Option Prompt :=
  topRanked s.cfg.fairTurn (s.schedule sd).lastOwner (s.regionCandidates sd)

/-- What the Display Controller is told of an owner. -/
def ownerContent (p : Prompt) : Content :=
  match p.page with
  | some g => .prompt p.slot g
  | none => .empty

/-- A prompt becomes region owner: it is recorded, granted, and its page record is shown (R36, steps 3 and 4). -/
def State.install (s : State) (sd : Side) (y : Prompt) : State :=
  ((s.onSchedule sd fun x => { x with owner := some y.slot }).grantPrompt y.slot).showContent sd (ownerContent y)

/-- A region without a candidate: no owner, and the fallback page if it is due (R36, R38). -/
def State.vacate (s : State) (sd : Side) : State :=
  let s1 := s.onSchedule sd fun x => { x with owner := none }
  if (s.region sd).showsPrompt then
    s1.showContent sd (if (s.schedule sd).fallbackDue then .fallback else .empty)
  else s1

/-- The top-ranked candidate becomes owner, or the region is left without one. -/
def State.installTop (s : State) (sd : Side) : State :=
  match s.regionTop sd with
  | some y => s.install sd y
  | none => s.vacate sd

/-- The region owner's record. -/
def State.ownerPrompt (s : State) (sd : Side) : Option Prompt := (s.schedule sd).owner.bind s.prompt

/-- A side's region owner is chosen again (R35, R36). Where the owner lost its eligibility that loss is the cause, so the record
is set first; where it is outranked the record is set after the choice (R31). -/
def State.chooseRegion (s : State) (sd : Side) : State :=
  match s.ownerPrompt sd with
  | none => s.installTop sd
  | some x =>
    if s.eligible x then
      match s.regionTop sd with
      | some y => if y.slot = x.slot then s else (((s.displace x.slot).setLastOwner sd x.owner).install sd y)
      | none => s
    else ((s.setLastOwner sd x.owner).displace x.slot).installTop sd

/-- Prompts without a page record are granted or displaced on eligibility alone, in posting order (R33; log 15). -/
def State.reviewPageless (s : State) (sd : Side) : State :=
  (s.ptb.prompts.filter fun p => decide (p.side = sd) && p.page.isNone).foldl
    (fun s p => if s.eligible p then s.grantPrompt p.slot else s.displace p.slot) s

/-- A side's holder changed: eligibility is evaluated again and the region chosen again (R32, R33, R35; log 15). -/
def State.holderChanged (s : State) (sd : Side) : State := ((s.reviewPageless sd).chooseRegion sd).settle

/-- A new prompt is offered to the Scheduler (R10 step 6, R33, R35). One without a page record is granted, its tone with it, before a region
is chosen, also where it replaces the owner of that region and another prompt is granted there: the model's choice (log 55). -/
def State.offerPrompt (s : State) (slot : Nat) : State :=
  match s.prompt slot with
  | none => s
  | some p =>
    let s1 := if p.page.isNone && s.eligible p then s.grantPrompt slot else s
    s1.chooseRegion p.side

/-- The fair turn setting changed: both regions are chosen again (R30, R35), LOWER first, the model's choice (log 38). -/
def State.fairTurnChanged (s : State) : State := ((s.chooseRegion .lower).chooseRegion .upper).settle

/-! ### Closures (R24, R25) -/

/-- A prompt that leaves gives up its region, whose last owner is set (R31). -/
def State.leaveRegion (s : State) (p : Prompt) : State :=
  if (s.schedule p.side).owner = some p.slot then
    s.onSchedule p.side fun x => { x with owner := none, lastOwner := some p.owner }
  else s

/-- Whether a prompt's expiry timer runs and stands at its end (R20). -/
def State.expiryEnds (s : State) (p : Prompt) : Bool := (p.expiryLeft.any fun n => decide (n ≤ 1)) && !s.stu.flag

/-- Whether the dwell timer of a prompt, which is an INFO prompt's (R16), runs and stands at its end (R18). -/
def State.dwellEnds (s : State) (p : Prompt) : Bool := s.dwellRuns p && decide (p.cls = .info ∧ p.dwellLeft = 0)

/-- A list with a slot behind it, where that is wanted. -/
def noteSlot (l : List Nat) (note : Bool) (slot : Nat) : List Nat := if note then l ++ [slot] else l

/-- The timers of a prompt that leaves are cancelled: an end that falls together with its leaving does not come, also where its slot is
taken again in the same moment (R11, R24; log 36). -/
def State.cancelTimers (s : State) (p : Prompt) : State :=
  { s with late :=
    ⟨noteSlot s.late.expiries (s.expiryEnds p) p.slot, noteSlot s.late.dwells (s.dwellEnds p) p.slot,
      noteSlot s.late.repeats (repeatEnds p) p.slot⟩ }

/-- The steps 1 to 3 of a closure: span, timers, slot (R24). -/
def State.removePrompt (s : State) (p : Prompt) : State :=
  let s1 := (((s.cancelTimers p).stopSpan p.slot).dropReplay p.side p.slot).leaveRegion p
  s1.setPrompts (s1.ptb.prompts.filter fun x => decide (x.slot ≠ p.slot))

/-- A closure but for its last step, the new choice (R24, steps 1 to 4). -/
def State.closeNoChoice (s : State) (p : Prompt) (o : Closing) : State := (s.removePrompt p).offer p.owner (closedNotice p o)

/-- A closure (R24); the channel it frees is granted after the region choice (log 16). -/
def State.closePrompt (s : State) (slot : Nat) (o : Closing) : State :=
  match s.prompt slot with
  | none => s
  | some p => ((s.closeNoChoice p o).chooseRegion p.side).settle

/-- The live prompts of a port, in posting order. -/
def State.ownedBy (s : State) (o : Port) : List Prompt := s.ptb.prompts.filter fun p => decide (p.owner = o)

/-- A region is chosen again where a list of removed prompts names its side (R35; log 35). -/
def State.chooseAfter (s : State) (gone : List Prompt) (sd : Side) : State :=
  if gone.any fun p => decide (p.side = sd) then s.chooseRegion sd else s

/-- A client reset removes every prompt of a port without notices, and the Scheduler ranks again (R25, R50; log 35), for LOWER before
UPPER (log 38). -/
def State.removeOwned (s : State) (o : Port) : State :=
  let gone := s.ownedBy o
  (((gone.foldl (fun s p => s.removePrompt p) s).chooseAfter gone .lower).chooseAfter gone .upper).settle

/-! ### Answers (R21, R82) and HELP (R48) -/

/-- Whether a key event matches a prompt (R5). -/
def Prompt.matches (p : Prompt) (k : Key) (hold : Bool) : Bool :=
  match responseBit k with
  | some n => p.responseSet.getLsbD n && (hold || !p.holdToAnswer)
  | none => false

/-- An acknowledged prompt: its repeat timer stops and nothing of a repeat is left (R21, R82). -/
def acknowledge (p : Prompt) : Prompt :=
  { p with state := .granted .acknowledged, repeatTimer := none, repeatDue := false, repeatStarted := false }

/-- An answer, taken in PRESENTING or AWAITING (R21, R82). -/
def State.answer (s : State) (p : Prompt) (k : Key) (hold : Bool) : State :=
  match p.cls with
  | .action | .confirm => s.closePrompt p.slot (.answered k hold)
  | .safety | .fault =>
    let s1 := ((s.stopSpan p.slot).onPrompt p.slot acknowledge).dropReplay p.side p.slot
    (s1.offer p.owner (answeredNotice p k hold)).settle
  | .info | .status => s

/-- A replay is recorded for a side (R48). -/
def State.recordReplay (s : State) (sd : Side) (slot : Nat) : State :=
  (s.onSchedule sd fun x => { x with replay := some ⟨slot, false, false⟩ }).settle

/-- A HELP request for a side (R48). A replay not yet granted, or cut short and waiting to go on (log 19), is left as it is; only a replay
that has been granted and is playing takes the further-replay mark. -/
def State.helpRequest (s : State) (sd : Side) : State :=
  match (s.schedule sd).owner with
  | none => s
  | some slot =>
    if s.mute sd then s
    else
      match (s.schedule sd).replay with
      | none => s.recordReplay sd slot
      | some r =>
        if r.slot ≠ slot then s.recordReplay sd slot
        else if r.started ∧ s.sch.turn = some (.prompt slot .replay) then
          s.onSchedule sd fun x => { x with replay := some { r with further := true } }
        else s

/-! ### The fallback page (R37, R38) -/

/-- The unbound timer of a side starts from 0 (R37). -/
def State.startUnbound (s : State) (sd : Side) : State := s.onSchedule sd fun x => { x with unbound := ⟨0, true⟩ }

/-- Whether an unbound timer runs and stands at its end (R37). -/
def UnboundTimer.ended (x : UnboundTimer) : Bool := x.running && decide (Config.unboundTicks ≤ x.count)

/-- An unbound timer that is about to stop: an end that falls together with that does not come (R37; log 36). -/
def State.overtakeUnbound (s : State) (sd : Side) : State :=
  s.onOvertaken sd fun o => { o with unbound := o.unbound || (s.schedule sd).unbound.ended }

/-- A drum role is bound: the timer stops at 0, the fallback is no longer due, and a fallback page is taken down (R37). -/
def State.stopUnbound (s : State) (sd : Side) : State :=
  let s1 := (s.overtakeUnbound sd).onSchedule sd fun x => { x with unbound := ⟨0, false⟩, fallbackDue := false }
  if (s.region sd).content = .fallback then s1.showContent sd .empty else s1

/-- The unbound timer reaches 5 s (R37, R38). -/
def State.fallbackFalls (s : State) (sd : Side) : State :=
  let s1 := s.onSchedule sd fun x => { x with unbound := ⟨Config.unboundTicks, false⟩, fallbackDue := true }
  if (s.schedule sd).owner.isNone then s1.showContent sd .fallback else s1

end Sys2Proof.Machine
end

