-- ==== Sys2Proof/Machine/Sides.lean ====
section
/-! DEFINITION. The Side Control Unit (spec/03): sessions, holds and cycle records. -/

namespace Sys2Proof.Machine

/-! ### Checks shared by the requests of a side (R55, R59) -/

/-- The side field, then the sender's permission for the side (R55, steps 1 and 2). -/
def State.checkSide (s : State) (p : Port) (b : Byte) : Except Status Side :=
  match sideOf b with
  | none => .error .badField
  | some sd => if roleReachesSide (s.link p).role sd then .ok sd else .error .notPermitted

/-- A request on a side that passes the side checks goes on; one that fails is answered and changes nothing. -/
def State.withSide (s : State) (p : Port) (b : Byte) (f : Side → Reply × State) : Reply × State :=
  match s.checkSide p b with
  | .error st => (.answer st [], s)
  | .ok sd => f sd

/-! ### Sessions (R52 to R62) -/

/-- The state code of a session, its language, mode and volume (R55, R174). -/
def sessionBytes (x : Session) : List Byte := [boolCode x.active, fourCode x.language, modeCode x.mode, fourCode x.volume]

/-- The idle timer starts from 0 with the timeout then configured (R54, R56). -/
def State.startIdle (s : State) (sd : Side) : State :=
  s.onSession sd fun x => { x with idle := some ⟨0, s.cfg.idleTimeout⟩ }

/-- An idle timer that is about to restart or stop: an expiry that falls together with that does not come (R56, R58; log 36). -/
def State.overtakeIdle (s : State) (sd : Side) : State :=
  s.onOvertaken sd fun o => { o with idle := o.idle || (s.records sd).session.idle.any Counting.ended }

/-- A running idle timer starts again (R56). -/
def State.restartIdle (s : State) (sd : Side) : State := (s.overtakeIdle sd).startIdle sd

/-- A session starts on an ASLEEP side (R54). -/
def State.beginSession (s : State) (sd : Side) : State :=
  let s1 := (s.onSession sd fun x => { x with active := true }).startIdle sd
  (s1.offerMasked (beganNotice sd (s.records sd).session.language)).sideActive

/-- A session-start event of a key event or a START SESSION: an ACTIVE side's idle timer starts again (R54, R56). -/
def State.sessionEvent (s : State) (sd : Side) : State :=
  if (s.records sd).session.active then s.restartIdle sd else s.beginSession sd

/-- A session-start event of a prompt, which changes nothing on an ACTIVE side (R54). -/
def State.wakeForPrompt (s : State) (sd : Side) : State :=
  if (s.records sd).session.active then s else s.beginSession sd

/-- A session takes the house values (R52, R57). -/
def houseSession (c : Configuration) (x : Session) : Session :=
  { x with language := c.language, mode := c.mode, volume := c.volume }

/-- A side's mode became OFF other than by SET SPEECH MODE or the SPEECH key, or the side went ASLEEP: what R40 and R41 do at
the end of the current element, or at once to what does not speak (R53, R57). -/
def State.softMode (s : State) (sd : Side) (old : SpeechMode) : State :=
  let s1 := s.markDelivered sd
  if old ≠ .off ∧ s1.modeOf sd = .off then s1.clearReplay sd else s1

/-- The prompts that a session's end closes: ACTION and CONFIRM on the side, in posting order (R23). -/
def State.sessionPrompts (s : State) (sd : Side) : List Nat :=
  (s.ptb.prompts.filter fun p => decide (p.side = sd ∧ (p.cls = .action ∨ p.cls = .confirm))).map (·.slot)

/-- A session ends (R57). Each closure of its step 2 is settled before the next, while the side still has its old language, mode and
volume, the model's choice (log 42). -/
def State.endSession (s : State) (sd : Side) (cause : EndCause) : State :=
  let old := (s.records sd).session
  let s1 := s.onSession sd fun x => { x with active := false, idle := none }
  let s2 := (s1.sessionPrompts sd).foldl (fun s n => s.closePrompt n .unanswered) s1
  let s3 := s2.onSession sd (houseSession s2.cfg)
  let s4 := (s3.offerMasked (endedNotice sd cause)).sideAsleep
  let s5 := if (s4.records sd).session.language ≠ old.language then s4.languageChanged sd else s4
  (s5.softMode sd old.mode).settle

/-- START SESSION (R55). -/
def State.startSession (s : State) (p : Port) (b : Byte) : Reply × State :=
  s.withSide p b fun sd =>
    let began := !(s.records sd).session.active
    let s1 := s.sessionEvent sd
    (.answer .ok (boolCode began :: sessionBytes (s1.records sd).session), s1)

/-- END SESSION, which an idle expiry that falls together with it does not follow (R58; log 36). -/
def State.stopSession (s : State) (p : Port) (b : Byte) : Reply × State :=
  s.withSide p b fun sd =>
    if (s.records sd).session.active then (.answer .ok [], (s.overtakeIdle sd).endSession sd .request)
    else (.answer .sideAsleep [], s)

/-- A session's language is set (R59). -/
def State.putLanguage (s : State) (sd : Side) (l : Fin 4) : State :=
  if (s.records sd).session.language = l then s
  else (s.onSession sd fun x => { x with language := l }).languageChanged sd

/-- SET LANGUAGE (R59). -/
def State.setLanguage (s : State) (p : Port) (b language : Byte) : Reply × State :=
  s.withSide p b fun sd =>
    match fourOf language with
    | none => (.answer .badField [], s)
    | some l =>
      if (s.records sd).session.active then (.answer .ok [], s.putLanguage sd l) else (.answer .sideAsleep [], s)

/-- A side's speech mode is set within a session, by SET SPEECH MODE or the SPEECH key (R61). -/
def State.putMode (s : State) (sd : Side) (m : SpeechMode) : State :=
  if s.modeOf sd = m then s
  else
    let s1 := s.onSession sd fun x => { x with mode := m }
    if m = .off then ((s1.deliverSide sd).clearReplay sd).settle else s1.settle

/-- SET SPEECH MODE (R61). -/
def State.setSpeechMode (s : State) (p : Port) (b mode : Byte) : Reply × State :=
  s.withSide p b fun sd =>
    match speechModeOf mode with
    | none => (.answer .badField [], s)
    | some m =>
      if (s.records sd).session.active then (.answer .ok [], s.putMode sd m) else (.answer .sideAsleep [], s)

/-! ### Holds (R63 to R67) -/

/-- A port becomes or stays holder, the lapse timer starting at 0 (R64). -/
def State.putHolder (s : State) (sd : Side) (p : Port) : State :=
  s.onHold sd fun _ => ⟨some p, some ⟨0, s.cfg.holdLapse⟩⟩

/-- A lapse timer that is about to restart or stop: a lapse that falls together with that does not come (R64 to R67; log 36). -/
def State.overtakeLapse (s : State) (sd : Side) : State :=
  s.onOvertaken sd fun o => { o with lapse := o.lapse || (s.records sd).hold.lapse.any Counting.ended }

/-- The holder's own claim starts its lapse timer again (R66). -/
def State.renewHold (s : State) (sd : Side) (p : Port) : State := (s.overtakeLapse sd).putHolder sd p

/-- CLAIM SIDE, a test-and-set that reports the previous holder (R64). -/
def State.claimSide (s : State) (p : Port) (b : Byte) : Reply × State :=
  s.withSide p b fun sd =>
    let found := (s.records sd).hold.holder
    let s1 :=
      match found with
      | none => (s.putHolder sd p).holderChanged sd
      | some h => if h = p then s.renewHold sd p else s
    (.answer .ok [portCode found], s1)

/-- A side is freed by release or client reset (R65, R67). -/
def State.freeHold (s : State) (sd : Side) : State := ((s.overtakeLapse sd).onHold sd fun _ => ⟨none, none⟩).holderChanged sd

/-- RELEASE SIDE (R65). -/
def State.releaseSide (s : State) (p : Port) (b : Byte) : Reply × State :=
  s.withSide p b fun sd =>
    if (s.records sd).hold.holder = some p then (.answer .ok [], s.freeHold sd) else (.answer .notHolder [], s)

/-- A hold lapses: the side is freed and its former holder is offered HOLD_LAPSED before the Scheduler takes the report (R66). -/
def State.lapseHold (s : State) (sd : Side) (h : Port) : State :=
  ((s.onHold sd fun _ => ⟨none, none⟩).offer h (holdLapsedNotice sd)).holderChanged sd

/-- A client reset frees a side that the port holds (R67), and both regions are chosen again (R50), LOWER first (log 38). -/
def State.freeHeld (s : State) (p : Port) (sd : Side) : State :=
  if (s.records sd).hold.holder = some p then (((s.freeHold sd).chooseRegion .lower).chooseRegion .upper).settle else s

/-! ### Cycle records (R68 to R74) -/

/-- The cycle record as responses carry it (R174). -/
def cycleBytes (c : Cycle) : List Byte := phaseCode c.phase :: wordBytes c.countdown ++ [boolCode c.running]

/-- A cycle record after a write of the fields that are present (R69). -/
def Cycle.written (c : Cycle) (phase : Option Phase) (countdown : Option Nat) (run : Option Bool) : Cycle :=
  let cd := countdown.getD c.countdown
  let r := run.getD c.running
  let runs := r && decide (cd ≠ 0)
  let afresh := countdown.isSome || (r && !c.running)
  { phase := phase.getD c.phase, countdown := cd, running := runs
    second := if runs then (if afresh then some 0 else c.second) else none }

/-- Whether a write takes a second that stood at its end and restarts or stops it, so that the fall that falls together with the write
does not come (R70, R74; log 36). -/
def Cycle.overtakes (old new : Cycle) : Bool := old.second.any (fun n => decide (Config.ticksPerSecond ≤ n)) && decide (new.second ≠ old.second)

/-- A cycle record that is about to take new contents: a fall that falls together with that does not come where the second restarts or stops
(R70, R74; log 36). -/
def State.overtakeSecond (s : State) (sd : Side) (c : Cycle) : State :=
  s.onOvertaken sd fun o => { o with second := o.second || (s.records sd).cycle.overtakes c }

/-- A cycle record takes new contents; PHASE is offered to some ports if the phase changed, and the display follows (R71, R72). -/
def State.putCycle (s : State) (sd : Side) (c : Cycle) (ports : List Port) : State :=
  let old := (s.records sd).cycle
  let s1 := (s.overtakeSecond sd c).onCycle sd fun _ => c
  let n := phaseNotice sd old.phase c.phase
  let s2 := if c.phase = old.phase then s1 else s1.offerEach (ports.filter fun p => maskEnables (s1.nq.get p).mask n.kind) n
  if c.countdown = old.countdown then s2 else s2.countdownChanged sd

/-- An optional field of SET CYCLE: absent, or read by `f`; none where it is present and out of range (R69). -/
def optField {α : Type} (present : Bool) (v : Option α) : Option (Option α) :=
  if present then v.map some else some none

/-- A countdown in range (R69). -/
def countdownOf (w : Word16) : Option Nat := if w.toNat ≤ Config.maxCountdown then some w.toNat else none

/-- SET CYCLE (R69). The Link Unit has refused the roles that are not drums (R163). -/
def State.setCycle (s : State) (p : Port) (b presence phase : Byte) (countdown : Word16) (run : Byte) : Reply × State :=
  s.withSide p b fun sd =>
    match optField (presence.getLsbD 0) (phaseOf phase), optField (presence.getLsbD 1) (countdownOf countdown),
      optField (presence.getLsbD 2) (boolOf run) with
    | some ph, some cd, some r =>
      let c := (s.records sd).cycle.written ph cd r
      (.answer .ok (cycleBytes c), s.putCycle sd c allPorts)
    | _, _, _ => (.answer .badField [], s)

/-- READ CYCLE, open for either side (R73). -/
def State.readCycle (s : State) (b : Byte) : Reply × State :=
  match sideOf b with
  | none => (.answer .badField [], s)
  | some sd => (.answer .ok (cycleBytes (s.records sd).cycle), s)

/-- The cycle record after a second ends (R70). -/
def Cycle.fallen (c : Cycle) : Cycle :=
  let n := c.countdown - 1
  { c with countdown := n, running := decide (n ≠ 0), second := if n = 0 then none else some 0 }

/-- A second ends on a RUNNING side: the countdown falls, stopping at zero with COUNTDOWN_ZERO (R70). -/
def State.fallCountdown (s : State) (sd : Side) : State :=
  let c := (s.records sd).cycle.fallen
  let s1 := s.onCycle sd fun _ => c
  let s2 := if c.countdown = 0 then s1.offerMasked (countdownZeroNotice sd) else s1
  s2.countdownChanged sd

/-- The client reset of a side's drum sets its cycle record; PHASE goes to the other ports (R74). -/
def State.resetCycle (s : State) (p : Port) (sd : Side) : State :=
  s.putCycle sd ⟨.idle, 0, false, none⟩ (allPorts.filter fun q => decide (q ≠ p))

end Sys2Proof.Machine
end

