-- ==== Sys2Proof/Machine/Posting.lean ====
section
/-! DEFINITION. Requests on the Prompt Table (spec/01: R1 to R14, R22, R26, R27; spec/10: R187). -/

namespace Sys2Proof.Machine

/-! ### Reading a posted prompt (R1, R3 to R7) -/

/-- The default repeat interval, in seconds (R1). -/
def defaultInterval : Nat := 10

/-- The default dwell, in seconds (R1, R6). -/
def defaultDwell : Nat := 5

/-- The tone, expiry, repeat and dwell fields are in range where they are present (R5, R6, R7). -/
def optionsOk (b : PromptBody) (cls : PClass) : Bool :=
  (b.tone.all fun t => decide (t.toNat ≤ 13)) &&
  (b.expiry.all fun e => decide (1 ≤ e.toNat ∧ e.toNat ≤ 3600)) &&
  (b.repeats.all fun r => decide (r.1.toNat ≤ 7 ∧ 2 ≤ r.2.toNat ∧ r.2.toNat ≤ 60)) &&
  (b.dwell.all fun d => decide (1 ≤ d.toNat ∧ d.toNat ≤ 60 ∧ cls = .info))

/-- The response set fits the class: empty on INFO and STATUS, not empty on ACTION and CONFIRM (R7). -/
def responseOk (b : PromptBody) (cls : PClass) : Bool :=
  match cls with
  | .info | .status => decide (b.responseSet = 0)
  | .action | .confirm => decide (b.responseSet ≠ 0)
  | .safety | .fault => true

/-- A prompt has something to present (R7). -/
def presentsSomething (b : PromptBody) : Bool := !b.span.isEmpty || b.page.isSome || b.tone.isSome

/-- The page field: absent, or a page record in range; none where it is out of range (R4, R7). -/
def pageField (b : PromptBody) : Option (Option PageRecord) :=
  match b.page with
  | none => some none
  | some g => (pageOf g).map some

/-- The record of an accepted prompt, but for the slot and the sequence number, which the table sets (R1). -/
def promptRecord (o : Port) (sd : Side) (b : PromptBody) (cls : PClass) (span : List SpanElem) (page : Option PageRecord) :
    Prompt where
  owner := o
  tag := b.tag
  cls := cls
  urgency := b.urgency.toNat
  side := sd
  span := span
  page := page
  tone := b.tone.map (·.toNat)
  responseSet := b.responseSet.setWidth 5
  holdToAnswer := b.holdToAnswer
  expiry := b.expiry.map (·.toNat)
  repeatCount := (b.repeats.map (·.1.toNat)).getD 0
  repeatInterval := (b.repeats.map (·.2.toNat)).getD defaultInterval
  dwell := (b.dwell.map (·.toNat)).getD defaultDwell
  wake := b.wake
  state := .queued
  elemIndex := 0
  latch := none
  spokenOnce := false
  hasSpoken := false
  repeatsLeft := (b.repeats.map (·.1.toNat)).getD 0
  expiryLeft := b.expiry.map fun e => e.toNat * Config.ticksPerSecond
  dwellLeft := (b.dwell.map (·.toNat)).getD defaultDwell * Config.ticksPerSecond
  repeatTimer := none
  repeatDue := false
  repeatStarted := false
  seq := 0
  slot := 0

/-- The content checks of R7, step 2: the record, or none where the post is out of range. -/
def promptOf (o : Port) (sd : Side) (b : PromptBody) : Option Prompt :=
  match classOf b.cls, readAll spanElemOf b.span, pageField b with
  | some cls, some span, some page =>
    if b.urgency.toNat ≤ 3 ∧ b.span.length ≤ 8 ∧ optionsOk b cls ∧ responseOk b cls ∧ presentsSomething b then
      some (promptRecord o sd b cls span page)
    else none
  | _, _, _ => none

/-! ### Posting (R8 to R12) -/

/-- The quota of a role (R14). -/
def Configuration.quota (c : Configuration) : Role → Nat
  | .lowerDrum => c.quotaLower
  | .upperDrum => c.quotaUpper
  | .payment => c.quotaPayment
  | .room => c.quotaRoom

/-- The quota applied to a port: that of the role it holds (R14). -/
def State.quota (s : State) (p : Port) : Nat :=
  match (s.link p).role with
  | some r => s.cfg.quota r
  | none => 0

/-- The live count a post is checked with: less one for a replacement (R9). -/
def State.countedLive (s : State) (p : Port) (old : Option Prompt) : Nat := s.liveCount p - (if old.isSome then 1 else 0)

/-- Whether acceptance passes a session-start event (R10, step 5). -/
def wakesSide (x : Prompt) : Bool :=
  match x.cls with
  | .safety | .fault | .action | .confirm => true
  | .info | .status => x.wake

/-- The table with a new prompt at the tail of the posting order, and the counter gone on (R2, R10 steps 2 to 4). -/
def State.place (s : State) (x : Prompt) (slot : Nat) : State :=
  { s with ptb := ⟨s.ptb.prompts ++ [{ x with slot := slot, seq := s.ptb.counter }], s.ptb.counter + 1⟩ }

/-- Steps 2 to 6 of an acceptance in a slot (R10). -/
def State.enter (s : State) (x : Prompt) (slot : Nat) : State :=
  let s1 := s.place x slot
  let s2 := if wakesSide x then s1.wakeForPrompt x.side else s1
  s2.offerPrompt slot

/-- An acceptance in the lowest free slot, the old prompt of a replacement closed first (R10, R11; log 14). Where the old prompt lay on the
other side, that side's region is chosen after the new prompt's, the model's choice (R35; log 49). -/
def State.acceptPrompt (s : State) (x : Prompt) (old : Option Prompt) : Reply × State :=
  let s1 := match old with | some q => s.closeNoChoice q .replaced | none => s
  match lowestFree s1.ptb.prompts with
  | none => (.answer .tableFull [], s)
  | some slot =>
    let s2 := s1.enter x slot
    let s3 := match old with | some q => if q.side = x.side then s2 else s2.chooseRegion q.side | none => s2
    (.answer .ok (byteOf slot :: bytesOf s1.ptb.counter), s3.settle)

/-- POST PROMPT: the checks of R7 to R9 in order, then acceptance. -/
def State.postPrompt (s : State) (p : Port) (b : PromptBody) : Reply × State :=
  s.withSide p b.side fun sd =>
    match promptOf p sd b with
    | none => (.answer .badField [], s)
    | some x =>
      let old := s.tagged p x.tag
      if old.isSome && !b.replace then (.answer .tagLive [], s)
      else if s.quota p ≤ s.countedLive p old then (.answer .quota [], s)
      else s.acceptPrompt x old

/-! ### Withdrawing and reading (R22, R26, R27) -/

/-- WITHDRAW PROMPT (R22). -/
def State.withdrawPrompt (s : State) (p : Port) (tag : Byte) : Reply × State :=
  match s.tagged p tag with
  | none => (.answer .noSuchTag [], s)
  | some x => (.answer .ok [], s.closePrompt x.slot .withdrawn)

/-- The element index as it is reported (R187). -/
def reportedIndex (x : Prompt) : Nat := if x.elemIndex < x.span.length then x.elemIndex else 8

/-- The expiry left in whole seconds, rounded up (R26). -/
def expirySeconds (ticks : Nat) : Nat := (ticks + 99) / 100

/-- A two-byte field of a response: its value, or free bytes where the value is absent (log 8). -/
def State.optWord (s : State) : Option Nat → List Byte × State
  | some n => (wordBytes n, s)
  | none => s.unstated 2

/-- QUERY PROMPT (R26, R174). -/
def State.queryPrompt (s : State) (p : Port) (tag : Byte) : Reply × State :=
  match s.tagged p tag with
  | none => (.answer .noSuchTag [], s)
  | some x =>
    let held := decide ((s.schedule x.side).owner = some x.slot)
    let latch := s.optWord x.latch
    let left := latch.2.optWord (x.expiryLeft.map expirySeconds)
    (.answer .ok ([stateCode x.state, byteOf x.slot] ++ bytesOf x.seq ++
        [flagByte held x.spokenOnce x.latch.isSome x.expiryLeft.isSome, byteOf (reportedIndex x)] ++ latch.1 ++
        [byteOf x.repeatsLeft] ++ left.1), left.2)

/-- The five bytes behind an empty summary's mark, which the layout leaves unstated: owner, class, side and state are free among the
codes listed, which are the only ones sent, and the tag is free (R174; log 8). -/
def State.emptySummary (s : State) : List Byte :=
  [s.unstatedCode 0 5, Config.unstatedByte (s.free + 1), s.unstatedCode 2 6, s.unstatedCode 3 2, s.unstatedCode 4 7]

/-- The summary of a slot: marked empty, its other bytes free (log 8), or of its prompt (R27, R174). -/
def State.summary (s : State) (slot : Nat) : List Byte × State :=
  match s.prompt slot with
  | none => (0 :: s.emptySummary, (s.unstated 5).2)
  | some x => ([1, portCode (some x.owner), x.tag, classCode x.cls, sideCode x.side, stateCode x.state], s)

/-- LIST PROMPTS (R27). -/
def State.listPrompts (s : State) (slot : Byte) : Reply × State :=
  if slot.toNat < Config.slotCount then
    let a := s.summary slot.toNat
    let b := a.2.summary ((slot.toNat + 1) % Config.slotCount)
    (.answer .ok (a.1 ++ b.1), b.2)
  else (.answer .badField [], s)

end Sys2Proof.Machine
end

