-- ==== Sys2Proof/Machine/Keys.lean ====
section
/-! DEFINITION. The Key Scanner (spec/04): contacts, key events and where they go. -/

namespace Sys2Proof.Machine

/-! ### KEY CHECK (R89, R185) -/

/-- Whether a KEY CHECK runs. -/
def State.keyCheckRuns (s : State) : Bool :=
  match s.stu.result with
  | .running (.keyCheck _ _ _) => true
  | _ => false

/-- A test's count of key events, kept at 65,535 (R185). -/
def countedEvent : TestResult → TestResult
  | .running (.keyCheck d t n) => .running (.keyCheck d t (min 65535 (n + 1)))
  | r => r

/-- A key event during KEY CHECK goes to the ROOM port and does nothing else (R89). -/
def State.routeTest (s : State) (sd : Side) (k : EventKey) (kd : EventKind) : State :=
  let s1 := s.offerRoom (keyNotice sd k kd true)
  { s1 with stu := { s1.stu with result := countedEvent s1.stu.result } }

/-! ### Focus (R81) -/

/-- The focused prompt: the region owner, in PRESENTING or AWAITING with a non-empty response set (R81, step 1). -/
def State.focusPrompt (s : State) (sd : Side) : Option Prompt :=
  (s.ownerPrompt sd).filter fun p =>
    decide ((p.state = .granted .presenting ∨ p.state = .granted .awaiting) ∧ p.responseSet ≠ 0)

/-- The port that keys and detents fall to: the holder, else the side's drum (R81 steps 2 and 3, R85). -/
def State.focusPort (s : State) (sd : Side) : Option Port :=
  match (s.records sd).hold.holder with
  | some h => some h
  | none => s.portOf (drumRole sd)

/-- A KEY notice to the focus port; discarded where there is none (R84, R85). -/
def State.offerKey (s : State) (sd : Side) (k : EventKey) (kd : EventKind) : State :=
  match s.focusPort sd with
  | some p => s.offer p (keyNotice sd k kd false)
  | none => s

/-! ### Accepted events (R78, R80 to R87) -/

/-- The key click (R80). -/
def State.click (s : State) (sd : Side) : State := s.requestTone 14 sd .click

/-- The reject tone (R80, R83). -/
def State.rejectTone (s : State) (sd : Side) : State := s.requestTone 15 sd .reject

/-- An accepted event of START, STOP, OPTION, YES or NO goes by key focus (R81 to R84). -/
def State.routeKey (s : State) (sd : Side) (k : Key) (hold : Bool) : State :=
  match s.focusPrompt sd with
  | some p => if p.matches k hold then (s.click sd).answer p k hold else s.rejectTone sd
  | none => (s.click sd).offerKey sd (.key k) (pressKind hold)

/-- The next speech mode of the SPEECH key's cycle (R87). -/
def nextMode : SpeechMode → SpeechMode
  | .on => .assist
  | .assist => .off
  | .off => .on

/-- An accepted event is routed by its key (R78, step 4). -/
def State.acceptKey (s : State) (sd : Side) (k : Key) (hold : Bool) : State :=
  match k with
  | .help => (s.click sd).helpRequest sd
  | .speech => (s.click sd).putMode sd (nextMode (s.modeOf sd))
  | .start | .stop | .option | .yes | .no => s.routeKey sd k hold

/-- Whether the panel is OFF or SETTLING, so that a key is a wake (R78, step 2). -/
def State.panelDark (s : State) : Bool := decide (s.dsp.power = .off ∨ s.dsp.power = .settling)

/-- The spent mark of a key is set (R76, R79). -/
def State.spend (s : State) (sd : Side) (k : Key) : State := s.onKey sd k fun r => { r with spent := true }

/-- A wake (R79). -/
def State.wakeKey (s : State) (sd : Side) (k : Key) : State := (s.sessionEvent sd).spend sd k

/-- A key event is taken (R78). In the dark it is a wake, also where its make was confirmed in the dark during a KEY CHECK that has ended
since, the model's choice (log 43). -/
def State.takeKey (s : State) (sd : Side) (k : Key) (hold : Bool) : State :=
  if s.keyCheckRuns then s.routeTest sd (.key k) (pressKind hold)
  else if s.panelDark then s.wakeKey sd k
  else (s.sessionEvent sd).acceptKey sd k hold

/-- A confirmed make is taken (R78). -/
def State.takeMake (s : State) (sd : Side) (k : Key) : State :=
  if s.keyCheckRuns then s else if s.panelDark then s.wakeKey sd k else s

/-- A knob detent is taken (R78, R79, R85). -/
def State.takeDetent (s : State) (sd : Side) (kd : EventKind) : State :=
  if s.keyCheckRuns then s.routeTest sd .knob kd
  else if s.panelDark then s.sessionEvent sd
  else (s.sessionEvent sd).offerKey sd .knob kd

/-! ### Contacts (R75 to R77) -/

/-- A key whose contact closes or opens (R75); the confirmation of a make or break that falls together with the change does not come (log
36). -/
def contactChanged (closed : Bool) (r : KeyRecord) : KeyRecord :=
  match r.state, closed with
  | .idle, true => { r with closed := true, state := .making 0 }
  | .making n, false => { r with closed := false, state := .idle, makeLate := r.makeLate || decide (Config.debounceTicks ≤ n) }
  | .down, false => { r with closed := false, state := .breaking 0 }
  | .breaking n, true => { r with closed := true, state := .down, breakLate := r.breakLate || decide (Config.debounceTicks ≤ n) }
  | _, _ => { r with closed := closed }

/-- A contact changes; before scanning begins only the pin follows (R75). -/
def State.moveContact (s : State) (sd : Side) (k : Key) (closed : Bool) : State :=
  if s.ksc.scanning then s.onKey sd k (contactChanged closed) else s.onKey sd k fun r => { r with closed := closed }

/-- A key whose make is confirmed (R75). -/
def madeKey (r : KeyRecord) : KeyRecord := { r with state := .down, held := 0, spent := false }

/-- The confirmation of a make that a change of the contact has overtaken is past (R75; log 36). -/
def State.makeCame (s : State) (sd : Side) (k : Key) : State := s.onKey sd k fun r => { r with makeLate := false }

/-- The confirmation of a break that a change of the contact has overtaken is past (R75; log 36). -/
def State.breakCame (s : State) (sd : Side) (k : Key) : State := s.onKey sd k fun r => { r with breakLate := false }

/-- The make of a key in MAKING is confirmed (R75, R78), unless it is overtaken (log 36). -/
def State.confirmMake (s : State) (sd : Side) (k : Key) : State :=
  if (s.keyRecord sd k).makeLate then s.makeCame sd k
  else
    match (s.keyRecord sd k).state with
    | .making _ => (s.onKey sd k madeKey).takeMake sd k
    | .idle | .down | .breaking _ => s

/-- A key back at rest. -/
def restedKey (r : KeyRecord) : KeyRecord := { r with state := .idle }

/-- The break of an unspent key in BREAKING is confirmed: a PRESS (R76; log 34), unless it is overtaken (log 36). -/
def State.pressKey (s : State) (sd : Side) (k : Key) : State :=
  if (s.keyRecord sd k).breakLate then s.breakCame sd k
  else
    match (s.keyRecord sd k).state with
    | .breaking _ => if (s.keyRecord sd k).spent then s else (s.onKey sd k restedKey).takeKey sd k false
    | .idle | .making _ | .down => s

/-- The held time of an unspent key in DOWN reaches 1.5 s: a HOLD (R76). -/
def State.holdKey (s : State) (sd : Side) (k : Key) : State :=
  match (s.keyRecord sd k).state with
  | .down => if (s.keyRecord sd k).spent then s else (s.spend sd k).takeKey sd k true
  | .idle | .making _ | .breaking _ => s

/-- The break of a key in BREAKING is confirmed: a spent key makes no event, an unspent one its PRESS (R75, R76; log 34). -/
def State.confirmBreak (s : State) (sd : Side) (k : Key) : State :=
  if (s.keyRecord sd k).breakLate then s.breakCame sd k
  else
    match (s.keyRecord sd k).state with
    | .breaking _ => if (s.keyRecord sd k).spent then s.onKey sd k restedKey else s.pressKey sd k
    | .idle | .making _ | .down => s

/-- The position of a knob from its phase contacts (R77). -/
def knobPos : Bool → Bool → KnobPos
  | false, false => .rest
  | true, false => .a
  | true, true => .b
  | false, true => .c

/-- Whether two positions are neighbours in the circle REST, A, B, C (R77). -/
def neighbours : KnobPos → KnobPos → Bool
  | .rest, .a | .a, .rest | .a, .b | .b, .a | .b, .c | .c, .b | .c, .rest | .rest, .c => true
  | _, _ => false

/-- The detent that a move completes, if any (R77). -/
def detentOf (leaving : Option KnobPos) (old new : KnobPos) : Option EventKind :=
  if new ≠ .rest then none
  else if old = .c ∧ leaving = some .a then some .cw
  else if old = .a ∧ leaving = some .c then some .ccw
  else none

/-- A knob after a taken change of its contacts, with the detent the change completes (R77; log 33). -/
def Knob.moved (x : Knob) (p q : Bool) : Knob × Option EventKind :=
  let old := knobPos x.p x.q
  let new := knobPos p q
  if x.seeking then (⟨p, q, x.leaving, decide (new ≠ .rest)⟩, none)
  else if new = old then (⟨p, q, x.leaving, false⟩, none)
  else if neighbours old new then (⟨p, q, if old = .rest then some new else x.leaving, false⟩, detentOf x.leaving old new)
  else (⟨p, q, x.leaving, decide (new ≠ .rest)⟩, none)

/-- A change of a knob's phase contacts is taken; before scanning begins only the pins follow (R77). -/
def State.moveKnob (s : State) (sd : Side) (p q : Bool) : State :=
  if s.ksc.scanning then
    let r := (s.ksc.sides.get sd).knob.moved p q
    let s1 := s.onKnob sd fun _ => r.1
    match r.2 with
    | some kd => s1.takeDetent sd kd
    | none => s1
  else s.onKnob sd fun x => { x with p := p, q := q }

/-- A key as scanning begins: a closed one is DOWN and spent, an open one IDLE (R75). The held time 0 of both and the clear spent mark of
the open one are the model's choice (log 52). -/
def scannedKey (r : KeyRecord) : KeyRecord := 
  if r.closed then ⟨true, .down, 0, true, false, false⟩ else ⟨false, .idle, 0, false, false, false⟩

/-- A knob as scanning begins (R77): no leaving position is held until the knob leaves REST, the model's choice (log 56). -/
def scannedKnob (x : Knob) : Knob := ⟨x.p, x.q, none, decide (knobPos x.p x.q ≠ .rest)⟩

/-- Keys and knob of a side as scanning begins. -/
def scannedSide (x : SideKeys) : SideKeys := ⟨x.keys.mapAll scannedKey, scannedKnob x.knob⟩

end Sys2Proof.Machine
end

