-- ==== Sys2Proof/Machine/Bus.lean ====
section
/-! DEFINITION. The store bus (spec/05: R107, R110; spec/06: R126, R127): who claims it, what a grant does and what the end of a
transfer does, with the prefetch list and the store reads of the self-tests (spec/09: R181 to R183). -/

namespace Sys2Proof.Machine

/-! ### Self-test results (R181) -/

/-- A test completes or is aborted: the record is DONE and TEST_DONE goes to the ROOM port (R181). -/
def State.finishTest (s : State) (k : TestKind) (v : Verdict) (a b : Nat) : State :=
  ({ s with stu := { s.stu with result := .done k v a b } }).offerRoom (testDoneNotice (testCode k) v)

/-- The record of a running test. -/
def State.setRunning (s : State) (t : Running) : State := { s with stu := { s.stu with result := .running t } }

/-! ### What the Speech Engine fetches (R126) -/

/-- A store slot that the element in play will need: page, slot and the resolution it belongs to. -/
structure Need where
  page : Nat
  slot : Nat
  res : Resolution
  deriving DecidableEq, Repr

/-- The blocks of a resolved word from one on, in playing order (R126). -/
def wordNeeds (r : Resolution) (first : Nat) : List Need :=
  (List.range (r.blocks - first)).map fun i => ⟨recordPage r (first + i + 1), recordSlot (first + i + 1), r⟩

/-- The block at which the word in play stands: the one to begin or in play. -/
def Playing.standsAt : Playing → Nat
  | .word | .pause _ => 0
  | .ready k | .block k => k

/-- The blocks still ahead of an element, the one in play included, in playing order (R126). -/
def ElementInPlay.ahead (e : ElementInPlay) : List Need :=
  match e.rest with
  | [] => []
  | w :: rest =>
    (match w.res with | some r => wordNeeds r e.at_.standsAt | none => []) ++
      rest.flatMap fun x => match x.res with | some r => wordNeeds r 0 | none => []

/-- The blocks still ahead of the element in play. -/
def State.ahead (s : State) : List Need :=
  match s.spe.channel, s.spe.element with
  | .speaking, some e => e.ahead
  | _, _ => []

/-- The distinct values of a list in the order they first stand in it. -/
def distinct : List Nat → List Nat
  | [] => []
  | n :: rest => n :: (distinct rest).filter fun m => decide (m ≠ n)

/-- The page being decoded and the three pages of the element that follow it (R126). -/
def prefetchWindow (l : List Need) : List Nat := (distinct (l.map (·.page))).take Config.prefetchPlaces

/-- The page whose pin the Speech Engine waits for (R112, R127). -/
def State.pinAwaited (s : State) : Option Nat :=
  match s.spe.element with
  | some e =>
    match e.at_, e.rest with
    | .ready k, w :: _ =>
      w.res.bind fun r =>
        if s.spe.pin ≠ some (recordPage r (k + 1)) ∧ s.hasPending (recordPage r (k + 1)) then some (recordPage r (k + 1)) else none
    | _, _ => none
  | none => none

/-- The copies that a discard may reach: not the pinned one, nor one that the Speech Engine may fetch for now (R126). -/
def State.discardable (s : State) : List PageCopy :=
  s.spe.prefetch.filter fun c => decide (c.page ∉ prefetchWindow s.ahead) && decide (s.spe.pin ≠ some c.page)

/-- The copy to discard among some: the one finished longest ago, else the first (R126). -/
def oldestCopy (l : List PageCopy) : Option PageCopy := l.find? (·.finished) <|> l.head?

/-- The copy to discard so that a page finds room (R126): of a page no longer ahead in the element. Where every copy that may go is of a page
still ahead, the page waits; but for the page being decoded, which could otherwise never be decoded, R126 asks both for room and that
none of them go, and the model makes room (log 24). -/
def State.victim (s : State) (page : Nat) : Option PageCopy :=
  oldestCopy (s.discardable.filter fun c => decide (c.page ∉ s.ahead.map (·.page))) <|>
    (if s.ahead.head?.map (·.page) = some page then oldestCopy s.discardable else none)

/-- The prefetch list with room for a copy of a page, if there is or can be room (R126). -/
def State.roomFor (s : State) (page : Nat) : Option (List PageCopy) :=
  if s.spe.prefetch.length < Config.prefetchPlaces then some s.spe.prefetch
  else (s.victim page).map fun c => s.spe.prefetch.filter fun x => decide (x ≠ c)

/-- Whether the list holds a copy of a page. -/
def State.holdsCopy (s : State) (page : Nat) : Bool := s.spe.prefetch.any fun c => decide (c.page = page)

/-- The next slot that the element in play needs and that has not been fetched, of the pages that may be fetched for now (R126). -/
def State.neededSlot (s : State) : Option Need :=
  s.ahead.find? fun n => decide (n.page ∈ prefetchWindow s.ahead) && (fetchedSlot s.spe.prefetch n.page n.slot).isNone

/-- The slot the Speech Engine claims the bus for (R110, R126): none while that fetch waits for its page's pin, or for a copy to go so that
its page finds room. -/
def State.nextFetch (s : State) : Option Need :=
  s.neededSlot.filter fun n =>
    decide (s.pinAwaited ≠ some n.page) && (s.holdsCopy n.page || (s.roomFor n.page).isSome)

/-- Whether the element in play has a use for a slot fetched under a resolution (R114; log 24). -/
def State.stillUseful (s : State) (page : Nat) (r : Resolution) : Bool :=
  s.ahead.any fun n => decide (n.page = page ∧ n.res.first = r.first ∧ n.res.blocks = r.blocks)

/-- A fetched slot enters the prefetch list (R113, R126; log 24). The one copy of a page that two phrases share keeps the resolution of its
first fetch, the model's choice (log 46). -/
def State.storeFetched (s : State) (page slot : Nat) (r : Resolution) (bytes : List Byte) : State :=
  if !s.stillUseful page r then s
  else if s.holdsCopy page then
    { s with spe := { s.spe with prefetch := s.spe.prefetch.map fun c =>
        if c.page = page then { c with slots := (c.slots.filter fun x => decide (x.1 ≠ slot)) ++ [(slot, bytes)], finished := false }
        else c } }
  else
    match s.roomFor page with
    | some l => { s with spe := { s.spe with prefetch := l ++ [⟨page, r, [(slot, bytes)], false⟩] } }
    | none => s

/-! ### Claimants (R110) -/

/-- Whether a side's render waits for a store read (R144). -/
def State.displayClaims (s : State) (sd : Side) : Bool := (s.region sd).render.isSome

/-- The region whose read is served: where both claim, the one not served last, LOWER first after a reset (R144). -/
def State.displayTurn (s : State) : Option Side :=
  match s.displayClaims .lower, s.displayClaims .upper with
  | true, true => some (if s.dsp.lastRead = some .lower then .upper else .lower)
  | true, false => some .lower
  | false, true => some .upper
  | false, false => none

/-- A port's claim: its buffered write before its read or direct write (R110). -/
inductive PortClaim
  | posted (w : Posted)
  | read (page offset length : Nat)
  | write (page offset : Nat) (data : List Byte)
  deriving DecidableEq, Repr

/-- A port's read or direct write that claims the bus. -/
def workClaim (l : PortLink) : Option PortClaim :=
  match l.inWork with
  | some ⟨_, _, .read page offset length false⟩ => some (.read page offset length)
  | some ⟨_, _, .write page offset data⟩ => some (.write page offset data)
  | _ => none

/-- What a port claims the bus for. -/
def State.portClaim (s : State) (p : Port) : Option PortClaim :=
  match (s.portStore p).posted with
  | some w => if w.cond = .claiming then some (.posted w) else workClaim (s.link p)
  | none => workClaim (s.link p)

/-- The ports in circular order, beginning after the last client port served (R110). -/
def circularFrom : Option Port → List Port
  | none | some .d => [.a, .b, .c, .d]
  | some .a => [.b, .c, .d, .a]
  | some .b => [.c, .d, .a, .b]
  | some .c => [.d, .a, .b, .c]

/-- The client port whose turn it is, with its claim (R110). -/
def State.clientTurn (s : State) : Option (Port × PortClaim) :=
  (circularFrom s.psc.lastServed).findSome? fun p => (s.portClaim p).map fun c => (p, c)

/-- The slot a running test reads next (R182, R183). -/
def testSlot : Running → Option (Nat × Nat)
  | .storeSum first _ next _ => some (first + next / Config.slotsPerPage, next % Config.slotsPerPage)
  | .speechCheck r next _ => some (recordPage r (next + 1), recordSlot (next + 1))
  | .keyCheck _ _ _ => none

/-- The slot the running test claims the bus for. -/
def State.testClaim (s : State) : Option (Nat × Nat) :=
  match s.stu.result with
  | .running t => testSlot t
  | .empty | .done _ _ _ _ => none

/-- The port whose SELF TEST waits for its first store transfer (R181). -/
def State.testPort (s : State) : Option Port :=
  allPorts.find? fun p =>
    match (s.link p).inWork with
    | some ⟨_, _, .testStart⟩ => true
    | _ => false

/-! ### Grants (R107, R110) -/

/-- A transfer is under way. -/
def State.beginTransfer (s : State) (t : Transfer) : State := { s with psc := { s.psc with transfer := some t } }

/-- A client port has been served (R110). -/
def State.served (s : State) (p : Port) : State := { s with psc := { s.psc with lastServed := some p } }

/-- The buffered write of a port in another condition. -/
def State.markPosted (s : State) (p : Port) (c : PostCond) (page : Nat) : State :=
  s.onPortStore p fun x => { x with posted := x.posted.map fun w => { w with cond := c, pendingOn := some page } }

/-- A grant to a buffered write: it fails, enters pin wait, or is under way (R107). -/
def State.grantPosted (s : State) (p : Port) (w : Posted) : State :=
  match s.hit p w.page with
  | none => s.failPosted p w .noWindow
  | some x =>
    if !x.write then s.failPosted p w .noWrite
    else
      let page := x.physical w.page
      if s.spe.pin = some page then s.markPosted p .pinWait page
      else (s.markPosted p .underWay page).beginTransfer (.posted p page w.offset w.data)

/-- A grant to a client port (R104, R105, R107, R110). -/
def State.grantClient (s : State) (p : Port) (c : PortClaim) : State :=
  let s1 := s.served p
  match c with
  | .posted w => s1.grantPosted p w
  | .read page offset length => s1.beginTransfer (.read p page offset length)
  | .write page offset data => s1.beginTransfer (.write p page offset data)

/-- A grant to the Display Controller (R144). -/
def State.grantDisplay (s : State) (sd : Side) : State :=
  match (s.region sd).render with
  | some r => ({ s with dsp := { s.dsp with lastRead := some sd } }).beginTransfer (.display sd r.page false)
  | none => s

/-- A grant to the Service and Test Unit; at a test's first one its SELF TEST is answered (R181). -/
def State.grantTest (s : State) (page slot : Nat) : State :=
  let s1 := s.beginTransfer (.test page slot false)
  match s1.testPort with
  | some p => s1.replyWork p (.answer .ok [])
  | none => s1

/-- One grant of the arbiter to the highest order that has a claimant waiting (R110). -/
def State.arbitrate (s : State) : State :=
  match s.nextFetch with
  | some n => s.beginTransfer (.speech n.page n.slot n.res)
  | none =>
    match s.displayTurn with
    | some sd => s.grantDisplay sd
    | none =>
      match s.clientTurn with
      | some (p, c) => s.grantClient p c
      | none =>
        match s.testClaim with
        | some (page, slot) => s.grantTest page slot
        | none => s

/-- Whether a claimant waits (R110). -/
def State.busClaimed (s : State) : Bool :=
  s.nextFetch.isSome || s.displayTurn.isSome || s.clientTurn.isSome || s.testClaim.isSome

/-- The arbiter grants while a claimant waits and no transfer is under way: again at once where a grant took none (R110); between two such
grants the Speech Engine places a pin it waits for, the model's choice (log 45). -/
def State.grantLoop : Nat → State → State
  | 0, s => s
  | n + 1, s => if s.psc.transfer.isSome || !s.busClaimed then s else State.grantLoop n s.arbitrate.settle

/-- More grants than can fail one after another: two writes of each port (R107, R108). -/
def grantBound : Nat := 16

/-- The free bus is granted (R110). -/
def State.busGrant (s : State) : State := State.grantLoop grantBound s

/-! ### Ends of transfers -/

/-- The bytes of a store slot as they stand (R91). -/
def State.slotBytes (s : State) (page slot : Nat) : List Byte :=
  readBytes s.psc.memory page (Config.slotBytes * slot) Config.slotBytes

/-- The sum of a slot's bytes (R182). -/
def sumBytes (l : List Byte) : Nat := (l.map (·.toNat)).sum

/-- A store slot read for the running test (R182, R183). -/
def State.testRead (s : State) (bytes : List Byte) : State :=
  match s.stu.result with
  | .running (.storeSum first last next sum) =>
    let sum' := (sum + sumBytes bytes) % 65536
    if next + 1 = Config.slotsPerPage * (last - first + 1) then s.finishTest .storeSum .pass sum' (last - first + 1)
    else s.setRunning (.storeSum first last (next + 1) sum')
  | .running (.speechCheck r next faulted) =>
    let f := if blockFaulted bytes then faulted + 1 else faulted
    if next + 1 = r.blocks then s.finishTest .speechCheck (if f = 0 then .pass else .fail) r.blocks f
    else s.setRunning (.speechCheck r (next + 1) f)
  | _ => s

/-- The text slot read for a render: its string is formed and the render goes on (R144). -/
def State.textRead (s : State) (sd : Side) (bytes : List Byte) : State :=
  match (s.region sd).render with
  | some r =>
    match r.todo with
    | [] => s.continueRender sd r.language r.formed []
    | e :: rest => s.continueRender sd r.language (r.formed ++ [(e.1, .glyphs (textGlyphs bytes))]) rest
  | none => s

/-- What the end of a transfer does (R104, R105, R107, R108, R110, R144). The end of a buffered write lets the port's held write be taken
before the Speech Engine tries a pin it waits for, the model's choice (R108, R112; log 44). -/
def State.finishTransfer (s : State) (t : Transfer) : State :=
  match t with
  | .speech page slot r => s.storeFetched page slot r (s.slotBytes page slot)
  | .display sd page dropped => if dropped then s else s.textRead sd (s.slotBytes page 0)
  | .read p page offset length => s.replyWork p (.answer .ok (readBytes s.psc.memory page offset length))
  | .write p page offset data => (s.performWrite page offset data).replyWork p (.answer .ok [])
  | .posted p page offset data => ((s.performWrite page offset data).dropPosted p).bufferEmptied p
  | .test page slot dropped => if dropped then s else s.testRead (s.slotBytes page slot)

/-- A transfer ends (R110). -/
def State.transferEnd (s : State) : State :=
  match s.psc.transfer with
  | none => s
  | some t => (({ s with psc := { s.psc with transfer := none } }).finishTransfer t).settle

end Sys2Proof.Machine
end

