-- ==== Sys2Proof/Machine/Service.lean ====
section
/-! DEFINITION. The configuration record, service mode, auditions and self-tests (spec/09), the requests that write the font, the
segment map and the tone patterns (spec/06 R138, spec/07 R148 R150), and those that concern windows and the directory (spec/05). -/

namespace Sys2Proof.Machine

/-! ### Configuration (R175, R176) -/

/-- A number in a range. -/
def inRange (lo hi n : Nat) : Bool := decide (lo ≤ n ∧ n ≤ hi)

/-- The numbers of a configuration record are in range (R175). -/
def configNumbersOk (b : ConfigBody) : Bool :=
  [b.level0, b.level1, b.level2, b.level3].all (fun l => decide (l.toNat ≤ Config.muteSteps)) &&
  inRange 20 900 b.idle.toNat && inRange 10 600 b.lapse.toNat && inRange 10 600 b.panelOff.toNat &&
  [b.quotaLower, b.quotaUpper, b.quotaPayment, b.quotaRoom].all (fun q => inRange 2 32 q.toNat) &&
  decide (b.quotaLower.toNat + b.quotaUpper.toNat + b.quotaPayment.toNat + b.quotaRoom.toNat ≤ Config.slotCount)

/-- A configuration record from its bytes, if every item is in range (R175). -/
def configOf (b : ConfigBody) : Option Configuration :=
  match fourOf b.language, speechModeOf b.mode, fourOf b.volume, boolOf b.lockOnFault, boolOf b.fairTurn with
  | some l, some m, some v, some lock, some fair =>
    if configNumbersOk b then
      some
        { language := l, mode := m, volume := v
          levels := ⟨b.level0.toNat, b.level1.toNat, b.level2.toNat, b.level3.toNat⟩
          idleTimeout := b.idle.toNat, holdLapse := b.lapse.toNat, panelOff := b.panelOff.toNat
          quotaLower := b.quotaLower.toNat, quotaUpper := b.quotaUpper.toNat, quotaPayment := b.quotaPayment.toNat
          quotaRoom := b.quotaRoom.toNat, lockOnFault := lock, fairTurn := fair }
    else none
  | _, _, _, _, _ => none

/-- The 19 bytes of the configuration record (R174, R175). -/
def Configuration.bytes (c : Configuration) : List Byte :=
  [fourCode c.language, modeCode c.mode, fourCode c.volume, byteOf c.levels.l0, byteOf c.levels.l1, byteOf c.levels.l2,
    byteOf c.levels.l3] ++ wordBytes c.idleTimeout ++ wordBytes c.holdLapse ++ wordBytes c.panelOff ++
    [byteOf c.quotaLower, byteOf c.quotaUpper, byteOf c.quotaPayment, byteOf c.quotaRoom, boolCode c.lockOnFault,
      boolCode c.fairTurn]

/-- An ASLEEP side takes the house values at once (R53). -/
def State.applyHouse (s : State) (sd : Side) : State :=
  let x := (s.records sd).session
  if x.active then s
  else
    let s1 := s.onSession sd (houseSession s.cfg)
    let s2 := if s.cfg.language ≠ x.language then s1.languageChanged sd else s1
    if s.cfg.mode ≠ x.mode then s2.softMode sd x.mode else s2

/-- The record is replaced, and the items that act at once act (R175, R176): the house values of LOWER, then of UPPER, with speech
settled, before the regions are chosen again under another fair turn setting, an order the model chooses (R30; log 40). -/
def State.putConfig (s : State) (c : Configuration) : State :=
  let s1 := { s with cfg := c }
  let s2 := ((s1.applyHouse .lower).applyHouse .upper).settle
  if c.fairTurn = s.cfg.fairTurn then s2 else s2.fairTurnChanged

/-- SET CONFIG (R175). -/
def State.setConfig (s : State) (b : ConfigBody) : Reply × State :=
  match configOf b with
  | none => (.answer .badField [], s)
  | some c => (.answer .ok [], s.putConfig c)

/-! ### Service mode (R177 to R179) -/

/-- ENTER SERVICE (R177). -/
def State.enterService (s : State) : State := { s with stu := { s.stu with flag := true } }

/-- The kind of a running test. -/
def Running.kind : Running → TestKind
  | .storeSum _ _ _ _ => .storeSum
  | .speechCheck _ _ _ => .speechCheck
  | .keyCheck _ _ _ => .keyCheck

/-- A test's store read under way is dropped when its test is aborted (R178). -/
def State.dropTestRead (s : State) : State :=
  match s.psc.transfer with
  | some (.test page slot _) => s.beginTransfer (.test page slot true)
  | _ => s

/-- Whether a running test is a KEY CHECK whose timer stands at its end (R185). -/
def Running.ended : Running → Bool
  | .keyCheck duration elapsed _ => decide (duration ≤ elapsed)
  | .storeSum _ _ _ _ | .speechCheck _ _ _ => false

/-- A test that is about to be aborted: an end of a KEY CHECK that falls together with that does not come (R178, R185; log 36). -/
def State.overtakeCheck (s : State) (t : Running) : State := { s with stu := { s.stu with checkLate := s.stu.checkLate || t.ended } }

/-- A running self-test is aborted (R178, step 1). -/
def State.abortTest (s : State) : State :=
  match s.stu.result with
  | .running t => ((s.overtakeCheck t).dropTestRead).finishTest t.kind .aborted 0 0
  | .empty | .done _ _ _ _ => s

/-- An audition that is a candidate or is speaking ends with ABORTED (R178 step 2, R180). -/
def State.abortAudition (s : State) : State :=
  match s.stu.audition with
  | none => s
  | some _ =>
    if s.sch.turn = some .audition then s.endAudition .aborted
    else ({ s with stu := { s.stu with audition := none } }).offerRoom (testDoneNotice auditionCode .aborted)

/-- Service mode is left (R178). The channel that a stopped audition frees is granted again after step 4, with the flag clear, the model's
choice (R43; log 54). -/
def State.leaveService (s : State) : State :=
  if s.stu.flag then
    let s1 := s.abortTest.abortAudition
    ({ s1 with
        dsp := { s1.dsp with lampTest := false, blank := false }
        stu := { s1.stu with flag := false } }).settle
  else s

/-- LAMP TEST (R179). -/
def State.lampTest (s : State) (lamp blank : Byte) : Reply × State :=
  match boolOf lamp, boolOf blank with
  | some l, some b => (.answer .ok [], { s with dsp := { s.dsp with lampTest := l, blank := b } })
  | _, _ => (.answer .badField [], s)

/-! ### Auditions (R180) -/

/-- The greatest phrase number that can be written, auditioned or checked (R98, R180, R183). -/
def lastPhrase : Nat := 254

/-- AUDITION: an earlier audition ends first (R180), and the new one is a candidate before the channel that the earlier one held is
granted again, the model's choice (R49; log 41). -/
def State.startAuditioning (s : State) (phrase language : Byte) : Reply × State :=
  match fourOf language with
  | none => (.answer .badField [], s)
  | some l =>
    if phrase.toNat ≤ lastPhrase then
      let s1 := s.abortAudition
      (.answer .ok [], ({ s1 with stu := { s1.stu with audition := some ⟨phrase.toNat, l⟩ } }).settle)
    else (.answer .badField [], s)

/-! ### Self-tests (R181 to R185) -/

/-- A wrapping entry: its record runs past the last page (R184). -/
def wraps (e : DirEntry) : Bool := e.present && decide (4096 < 8 * e.first + 1 + e.blocks)

/-- An empty entry (R184). -/
def vacant (e : DirEntry) : Bool := e.present && decide (e.blocks = 0) && !e.text

/-- So many entries of the directory hold a property (R184); absent entries are not counted. -/
def State.countEntries (s : State) (f : DirEntry → Bool) : Nat := s.psc.directory.countP fun x => f x.2

/-- STORE SUM is accepted (R182). -/
def State.startStoreSum (s : State) (a b : Nat) : Reply × State :=
  if b < Config.pageCount ∧ a ≤ b then (.wait .testStart, s.setRunning (.storeSum a b 0 0)) else (.answer .badField [], s)

/-- SPEECH CHECK is accepted (R183). -/
def State.startSpeechCheck (s : State) (a b : Nat) : Reply × State :=
  if h : b < 4 ∧ a ≤ lastPhrase then
    match s.resolveExact a ⟨b, h.1⟩ with
    | none => (.answer .ok [], s.finishTest .speechCheck .fail 0 0)
    | some r =>
      if r.blocks = 0 then (.answer .ok [], s.finishTest .speechCheck .pass 0 0)
      else (.wait .testStart, s.setRunning (.speechCheck r 0 0))
  else (.answer .badField [], s)

/-- DIRECTORY CHECK (R184). -/
def State.directoryCheck (s : State) : Reply × State :=
  let a := s.countEntries wraps
  let b := s.countEntries vacant
  (.answer .ok [], s.finishTest .directoryCheck (if a = 0 ∧ b = 0 then .pass else .fail) a b)

/-- KEY CHECK is accepted (R185). -/
def State.startKeyCheck (s : State) (a : Nat) : Reply × State :=
  if 1 ≤ a ∧ a ≤ 60 then (.answer .ok [], s.setRunning (.keyCheck (a * Config.ticksPerSecond) 0 0))
  else (.answer .badField [], s)

/-- SELF TEST (R181). -/
def State.selfTest (s : State) (test : Byte) (a b : Word16) : Reply × State :=
  match s.stu.result with
  | .running _ | .done _ _ _ _ => (.answer .testResultPending [], s)
  | .empty =>
    match testOf test with
    | none => (.answer .badField [], s)
    | some .storeSum => s.startStoreSum a.toNat b.toNat
    | some .speechCheck => s.startSpeechCheck a.toNat b.toNat
    | some .directoryCheck => s.directoryCheck
    | some .keyCheck => s.startKeyCheck a.toNat

/-- The bytes behind a test of 0, which the layout leaves unstated: the verdict free among the codes sent, 0 of a running test among
them (R174, R181), and the details free (log 8). -/
def State.emptyResult (s : State) : List Byte :=
  s.unstatedCode 0 4 :: (List.range 4).map fun i => Config.unstatedByte (s.free + 1 + i)

/-- READ TEST RESULT (R181). -/
def State.readTestResult (s : State) : Reply × State :=
  match s.stu.result with
  | .empty => (.answer .ok (0 :: s.emptyResult), (s.unstated 5).2)
  | .running t => (.answer .ok ([testCode t.kind, 0] ++ wordBytes 0 ++ wordBytes 0), s)
  | .done k v a b =>
    (.answer .ok ([testCode k, verdictCode v] ++ wordBytes a ++ wordBytes b), { s with stu := { s.stu with result := .empty } })

/-- The duration of a KEY CHECK has run (R185), unless its abort has overtaken that in the same moment (log 36). -/
def State.endKeyCheck (s : State) : State :=
  if s.stu.checkLate then { s with stu := { s.stu with checkLate := false } }
  else
    match s.stu.result with
    | .running (.keyCheck _ _ n) => s.finishTest .keyCheck .pass n 0
    | _ => s

/-! ### Recovery and silence (R132, R133) -/

/-- A notice to every bound port whatever its mask (R132, R133). -/
def State.offerAll (s : State) (n : Notice) : State := s.offerEach allPorts n

/-- The channel falls silent: SPEECH_STATE, and every pending replay goes (R41, R132). -/
def State.silence (s : State) : State :=
  let s1 := { s with spe := { s.spe with channel := .silenced, recovery := none } }
  ((s1.offerAll (speechStateNotice 1 s.spe.resets)).clearReplay .lower).clearReplay .upper

/-- The recovery timer reaches 200 ms (R132). -/
def State.recoveryEnd (s : State) : State :=
  if s.spe.channel = .recovering then
    if s.cfg.lockOnFault ∧ 2 ≤ s.spe.resets then s.silence.settle
    else ({ s with spe := { s.spe with channel := .idle, recovery := none } }).settle
  else s

/-- RESTORE SPEECH (R133). -/
def State.restoreSpeech (s : State) : State :=
  let s1 := { s with spe := { s.spe with faults := 0, resets := 0 } }
  if s.spe.channel = .silenced then
    (({ s1 with spe := { s1.spe with channel := .idle } }).offerAll (speechStateNotice 2 0)).settle
  else s1

/-! ### Tones, font and segment map (R138, R148, R150) -/

/-- The notes of SET TONE. -/
def noteOf (n : Byte × Byte) : Note := ⟨n.1.toNat, n.2.toNat⟩

/-- SET TONE (R138). -/
def State.setTone (s : State) (pattern count : Byte) (notes : List (Byte × Byte)) : Reply × State :=
  if pattern.toNat ≤ 15 ∧ count.toNat ≤ 8 ∧ notes.all (fun n => decide (n.2 ≠ 0)) then
    (.answer .ok [], s.setPattern pattern.toNat (notes.map noteOf))
  else (.answer .badField [], s)

/-- A glyph pattern with every dot dark (R148). -/
def darkGlyph : List Byte := List.replicate 16 0

/-- SET GLYPH (R148). -/
def State.setGlyph (s : State) (code : Byte) (rows : List Byte) : Reply × State :=
  if 0x20 ≤ code.toNat ∧ code.toNat ≤ 0xDF then
    (.answer .ok [], { s with dsp := { s.dsp with font := mapPut darkGlyph s.dsp.font code.toNat rows } })
  else (.answer .badField [], s)

/-- An entry of the segment map: a segment, or NONE (R150, R174). -/
def segmentOf (b : Byte) : Option (Option Nat) :=
  if b = 0xFF then some none else if b.toNat ≤ 39 then some (some b.toNat) else none

/-- SET SEGMENT MAP (R150). -/
def State.setSegmentMap (s : State) (entries : List Byte) : Reply × State :=
  match readAll segmentOf entries with
  | none => (.answer .badField [], s)
  | some m => (.answer .ok [], { s with dsp := { s.dsp with map := m } })

/-! ### Windows, directory and post errors (R98, R99, R102, R109) -/

/-- The window that SET WINDOW carries (R102). -/
def windowOf (flags : Byte) (first last offset : Word16) : Window :=
  ⟨flags.getLsbD 0, first.toNat, last.toNat, offset.toNat, flags.getLsbD 1, flags.getLsbD 2, flags.getLsbD 3⟩

/-- A port's windows with one of them written whole. -/
def Windows.put (x : Windows) (n : Byte) (w : Window) : Windows := if n = 0 then { x with w0 := w } else { x with w1 := w }

/-- SET WINDOW (R102). -/
def State.setWindow (s : State) (target window flags : Byte) (first last offset : Word16) : Reply × State :=
  match targetOf target with
  | none => (.answer .badField [], s)
  | some q =>
    if window.toNat ≤ 1 ∧ first.toNat ≤ 511 ∧ last.toNat ≤ 511 ∧ offset.toNat ≤ 511 ∧ first.toNat ≤ last.toNat then
      (.answer .ok [], s.onPortStore q fun x => { x with windows := x.windows.put window (windowOf flags first last offset) })
    else (.answer .badField [], s)

/-- The entry that SET PHRASE writes: with present clear it becomes absent (R98). -/
def entryOf (flags : Byte) (first : Word16) (blocks : Byte) : DirEntry :=
  if flags.getLsbD 0 then ⟨true, first.toNat, blocks.toNat, flags.getLsbD 1⟩ else .absent

/-- SET PHRASE (R98). -/
def State.setPhrase (s : State) (phrase language flags : Byte) (first : Word16) (blocks : Byte) : Reply × State :=
  match fourOf language with
  | none => (.answer .badField [], s)
  | some l =>
    if phrase.toNat ≤ lastPhrase ∧ (flags.getLsbD 0 → first.toNat ≤ 511) then
      (.answer .ok [], s.setEntry phrase.toNat l (entryOf flags first blocks))
    else (.answer .badField [], s)

/-- READ PHRASE (R99). -/
def State.readPhrase (s : State) (phrase language : Byte) : Reply × State :=
  match fourOf language with
  | none => (.answer .badField [], s)
  | some l =>
    let e := s.entry phrase.toNat l
    (.answer .ok (entryFlags e :: wordBytes e.first ++ [byteOf e.blocks]), s)

/-- READ POST ERROR returns the record and clears it (R109); the bytes behind a cause of none are free (log 8). -/
def State.readPostError (s : State) (p : Port) : Reply × State :=
  match (s.portStore p).error with
  | none => (.answer .ok (0 :: (s.unstated 4).1), (s.unstated 4).2)
  | some e =>
    (.answer .ok (causeCode e.cause :: wordBytes e.page ++ wordBytes e.offset), s.onPortStore p fun x => { x with error := none })

end Sys2Proof.Machine
end

