-- ==== Sys2Proof/Machine/Link.lean ====
section
/-! DEFINITION. The Link Unit (spec/08): roles, client reset, notices, the checks of a request and the block it is handed to, and
the receiver and transmitter of a port. -/

namespace Sys2Proof.Machine

/-! ### Roles (R164, R165) -/

/-- The side whose drum role this is has its unbound timer stopped (R37, R164). -/
def State.drumBound (s : State) (r : Role) : State :=
  match roleSide r with
  | some sd => s.stopUnbound sd
  | none => s

/-- The side whose drum role this is has its unbound timer started (R37, R165). -/
def State.drumUnbound (s : State) (r : Role) : State :=
  match roleSide r with
  | some sd => s.startUnbound sd
  | none => s

/-- A port binds a free role (R164). -/
def State.bind (s : State) (p : Port) (r : Role) : State :=
  ((s.onLink p fun l => { l with role := some r }).onQueue p fun q => q.setMask 0xFFF).drumBound r

/-- BIND ROLE (R164). -/
def State.bindRole (s : State) (p : Port) (role : Byte) : Reply × State :=
  match roleOf role with
  | none => (.answer .badField [], s)
  | some r =>
    match (s.link p).role with
    | some x => if x = r then (.answer .ok [roleCode (some r)], s) else (.answer .portBound [], s)
    | none =>
      match s.portOf r with
      | some _ => (.answer .roleTaken [], s)
      | none => (.answer .ok [roleCode (some r)], s.bind p r)

/-! ### Client reset (R166) -/

/-- Step 4 of a client reset: a ROOM port leaves service mode (R166, R178). -/
def State.roomLeaves (s : State) (p : Port) : State := if (s.link p).role = some .room then s.leaveService else s

/-- Step 5: the port's queue is emptied (R166). -/
def State.emptyQueue (s : State) (p : Port) : State := s.onQueue p fun q => q.setNotices []

/-- Step 6: a drum's cycle record is reset (R74, R166). -/
def State.drumCycleReset (s : State) (p : Port) : State :=
  match (s.link p).role.bind roleSide with
  | some sd => s.resetCycle p sd
  | none => s

/-- A client reset, in the order of R166. A port that holds both sides has LOWER freed, with its choices and grants settled, before
UPPER, the model's choice (R67; log 39). -/
def State.clientReset (s : State) (p : Port) : State :=
  let s1 := ((s.resetPortStore p).removeOwned p)
  let s2 := (s1.freeHeld p .lower).freeHeld p .upper
  (((s2.roomLeaves p).emptyQueue p).drumCycleReset p)

/-- UNBIND ROLE: a client reset, then the role goes (R165). -/
def State.unbindRole (s : State) (p : Port) : State :=
  let s1 := s.clientReset p
  let s2 := s1.onLink p fun l => { l with role := none }
  match (s.link p).role with
  | some r => s2.drumUnbound r
  | none => s2

/-! ### Identity and notices (R168 to R170) -/

/-- The body of READ IDENTITY (R170). -/
def State.identity (s : State) (p : Port) : List Byte :=
  [Config.vendor, Config.part, Config.revision, portNumber p, roleCode (s.link p).role]

/-- FETCH NOTICE (R168). -/
def State.fetchNotice (s : State) (p : Port) : Reply × State :=
  match (s.nq.get p).notices with
  | [] => (.answer .empty [], s)
  | n :: rest => (.answer .ok (noticeBytes n rest.length), s.onQueue p fun q => q.setNotices rest)

/-- SET ATTENTION MASK (R169). -/
def State.setAttention (s : State) (p : Port) (mask : Word16) : State := s.onQueue p fun q => q.setMask (mask.setWidth 12)

/-! ### Requests (R161 to R163) -/

/-- A request is handed to the block that owns the state it concerns (R162, step 6). -/
def State.carryOut (s : State) (p : Port) (r : Request) : Reply × State :=
  match r with
  | .bindRole role => s.bindRole p role
  | .unbindRole => (.answer .ok [], s.unbindRole p)
  | .clientReset => (.answer .ok [], s.clientReset p)
  | .readIdentity => (.answer .ok (s.identity p), s)
  | .fetchNotice => s.fetchNotice p
  | .setAttentionMask mask => (.answer .ok [], s.setAttention p mask)
  | .postPrompt body => s.postPrompt p body
  | .withdrawPrompt tag => s.withdrawPrompt p tag
  | .queryPrompt tag => s.queryPrompt p tag
  | .listPrompts slot => s.listPrompts slot
  | .startSession sd => s.startSession p sd
  | .endSession sd => s.stopSession p sd
  | .setLanguage sd l => s.setLanguage p sd l
  | .setSpeechMode sd m => s.setSpeechMode p sd m
  | .claimSide sd => s.claimSide p sd
  | .releaseSide sd => s.releaseSide p sd
  | .setCycle sd pr ph c r => s.setCycle p sd pr ph c r
  | .readCycle sd => s.readCycle sd
  | .writePage page offset length data => s.writePage p page offset length data
  | .readPage page offset length => s.readPage p page offset length
  | .readPostError => s.readPostError p
  | .setWindow t w f first last offset => s.setWindow t w f first last offset
  | .setPhrase n l f first blocks => s.setPhrase n l f first blocks
  | .readPhrase n l => s.readPhrase n l
  | .setConfig body => s.setConfig body
  | .readConfig => (.answer .ok s.cfg.bytes, s)
  | .setTone pattern count notes => s.setTone pattern count notes
  | .setGlyph code rows => s.setGlyph code rows
  | .setSegmentMap entries => s.setSegmentMap entries
  | .enterService => (.answer .ok [], s.enterService)
  | .leaveService => (.answer .ok [], s.leaveService)
  | .lampTest lamp blank => s.lampTest lamp blank
  | .selfTest test a b => s.selfTest test a b
  | .readTestResult => s.readTestResult
  | .audition n l => s.startAuditioning n l
  | .restoreSpeech => (.answer .ok [], s.restoreSpeech)

/-- The checks 1 to 4 of R162 on a request code: the refusing status, or none. -/
def State.codeCheck (s : State) (p : Port) (code : Byte) : Option Status :=
  if code ∉ requestCodes then some .unknownRequest
  else
    match (s.link p).role with
    | none => if unboundPermits code then none else some .notBound
    | some r =>
      if !rolePermits r code then some .notPermitted
      else if serviceOnly code && !s.stu.flag then some .serviceOnly
      else none

/-- A request frame is taken: BUSY, or the checks of R162 in order, then the owning block (R161, R162). A request is none where
its body's length is not the one its layout fixes. -/
def State.takeRequest (s : State) (p : Port) (code seq : Byte) (r : Option Request) : State :=
  if (s.link p).inWork.isSome then s.onLink p fun l => l.refusal ⟨responseCode code, seq, .busy, [], false⟩
  else
    match s.codeCheck p code with
    | some st => s.respond p code seq st []
    | none =>
      match r with
      | none => s.respond p code seq .badField []
      | some r =>
        if wellSized r then
          let x := s.carryOut p r
          x.2.reply p code seq x.1
        else s.respond p code seq .badField []

/-! ### Receiver and transmitter (R157 to R160) -/

/-- Whether the gap timer runs (R157). -/
def Receive.timed : Receive → Bool
  | .ignore | .hunt => false
  | .length | .body _ _ | .check _ _ => true

/-- Whether a port's gap timer runs and stands at its end (R157). -/
def PortLink.gapEnded (l : PortLink) : Bool := l.receive.timed && decide (Config.gapTicks ≤ l.gap)

/-- The receiver of a port in a state, its gap timer at 0; an end of the timer that falls together with that does not come (log 36). -/
def PortLink.receiver (l : PortLink) (r : Receive) : PortLink :=
  { l with receive := r, gap := 0, gapLate := l.gapLate || l.gapEnded }

/-- The receiver of a port in a state. -/
def State.receiver (s : State) (p : Port) (r : Receive) : State := s.onLink p fun l => l.receiver r

/-- The end of a port's gap timer has come, or was overtaken: no note of it is left (log 36). -/
def State.gapCame (s : State) (p : Port) : State := s.onLink p fun l => { l with gapLate := false }

/-- A frame error (R158). -/
def State.frameError (s : State) (p : Port) : State :=
  (s.receiver p .hunt).onLink p fun l => l.refusal ⟨0, 0, .frameError, [], false⟩

/-- A frame whose bytes are complete: its CRC is checked and it is taken as a request, or it is a frame error (R157, R159). -/
def State.takeFrame (s : State) (p : Port) (body : List Byte) (crc : Word16) : State :=
  if frameCrc body = crc then
    match body with
    | code :: seq :: rest => (s.receiver p .hunt).takeRequest p code seq (parseRequest code rest)
    | _ => s.frameError p
  else s.frameError p

/-- A length byte in range (R157). -/
def lengthOk (n : Nat) : Bool := inRange 2 250 n

/-- Whether the receiver is in IGNORE. -/
def State.ignoring (s : State) (p : Port) : Bool := decide ((s.link p).receive = .ignore)

/-- A whole request frame arrives; in IGNORE every byte is discarded (R157, R171; log 3). -/
def State.frameArrives (s : State) (p : Port) (body : List Byte) (crc : Word16) : State :=
  if s.ignoring p then s
  else if lengthOk body.length then s.takeFrame p body crc
  else s.frameError p

/-- A request arrives in a frame without error (log 3). -/
def State.requestArrives (s : State) (p : Port) (seq : Byte) (r : Request) : State :=
  if s.ignoring p then s else (s.receiver p .hunt).takeRequest p (requestCode r) seq (some r)

/-- A byte is kept in BODY (R157). -/
def bodyReceive (length : Nat) (got : List Byte) : Receive :=
  if got.length < length then .body length got else .check got none

/-- A byte arrives and is taken by the receiver (R157). -/
def State.takeByte (s : State) (p : Port) (b : Byte) (stopBit : Bool) : State :=
  match (s.link p).receive with
  | .ignore => s
  | .hunt => if stopBit && decide (b = 0xA5) then s.receiver p .length else s
  | .length => if stopBit && lengthOk b.toNat then s.receiver p (.body b.toNat []) else s.frameError p
  | .body n got => if stopBit then s.receiver p (bodyReceive n (got ++ [b])) else s.frameError p
  | .check body none => if stopBit then s.receiver p (.check body (some b)) else s.frameError p
  | .check body (some lo) => if stopBit then s.takeFrame p body (wordOf lo b) else s.frameError p

/-- The gap timer reaches 20 ms with a frame incomplete (R157, R158), unless a byte or frame has overtaken that in the same moment (log 36). -/
def State.gapExpires (s : State) (p : Port) : State :=
  if (s.link p).gapLate then s.gapCame p
  else if (s.link p).receive.timed then (s.frameError p).gapCame p
  else s

/-- The last byte of a response is sent: its place is free, and a response that waits for the kept place takes it (R160). -/
def PortLink.sent (l : PortLink) : PortLink :=
  let l1 := { l with transmit := l.transmit.tail }
  match l1.inWork with
  | some ⟨_, _, .response f⟩ => if l1.keptTaken then l1 else { l1 with inWork := none, transmit := l1.transmit ++ [f] }
  | _ => l1

end Sys2Proof.Machine
end

