-- ==== Sys2Proof/Machine/Output.lean ====
section
/-! DEFINITION. What the audio pins carry (spec/06: R136, R137): views of the Speech Engine and the Tone Generator. -/

namespace Sys2Proof.Machine

/-- The attenuation of speech while a block plays: that of its element, and six steps more under a tone, at most 31 (R137). -/
def State.speechAttenuation (s : State) : Option Nat :=
  match s.spe.channel, s.spe.element with
  | .speaking, some e =>
    match e.at_ with
    | .block _ => some (min Config.muteSteps (e.level + (if s.tgn.current.isSome then Config.duckSteps else 0)))
    | .word | .ready _ | .pause _ => none
  | _, _ => none

/-- The attenuation of the tone in play (R137). -/
def State.toneAttenuation (s : State) : Option Nat := s.tgn.current.map (·.level)

/-- The mute output (R137). -/
def State.muteDriven (s : State) : Bool :=
  match s.speechAttenuation, s.toneAttenuation with
  | none, none => true
  | some a, some b => decide (a = Config.muteSteps ∧ b = Config.muteSteps)
  | _, _ => false

/-- Whether `k` is at most what `n` steps of 2 dB leave of the magnitude `m`, ten steps being a factor of 10: `k` is at most `m` times
`10 ^ (-n / 10)`, in tenth powers (R136). -/
def withinSteps (n m k : Nat) : Bool := decide (k ^ 10 * 10 ^ n ≤ m ^ 10)

/-- The greatest of the values from `k` to below `k + 2 ^ bits` that a property, which holds up to some value, has; found bit by bit. -/
def greatestFrom (holds : Nat → Bool) : Nat → Nat → Nat
  | 0, k => k
  | bits + 1, k => greatestFrom holds bits (if holds (k + 2 ^ bits) then k + 2 ^ bits else k)

/-- A magnitude after `n` steps of 2 dB, rounded down (R136). -/
def attenuatedDown (n m : Nat) : Nat := greatestFrom (withinSteps n m) (Nat.log2 m + 1) 0

/-- The magnitude of a sample after `n` steps of 2 dB (R136): exact where that is a whole number, else one of its two neighbours, which of
them being free (log 28). -/
def attenuatedMagnitude (n : Nat) (x : Int) : Nat :=
  let k := attenuatedDown n x.natAbs
  if k ^ 10 * 10 ^ n = x.natAbs ^ 10 then k else if Config.roundsAway n x then k + 1 else k

/-- A sample after its attenuation: silence where none is played and at 31 steps, which mute; else the sample with its sign and its
magnitude after so many steps of 2 dB (R136, R137). -/
def attenuatedOr (a : Option Nat) (x : Int) : Int :=
  match a with
  | some n => if Config.muteSteps ≤ n then 0 else x.sign * attenuatedMagnitude n x
  | none => 0

/-- A sum limited to the output's range, which holds silence and whose bounds are free (R137; log 28). -/
def limitedOutput (x : Int) : Int := max (-(Config.outputBelow : Int)) (min (Config.outputAbove : Int) x)

/-- Sample `k` of the block in play (R128). -/
def State.speechSample (s : State) (k : Nat) : Int :=
  match s.spe.element with
  | some e => e.samples.getD k 0
  | none => 0

/-- The frequency code of the note in play; 0 for a rest or no tone (R138, R139). -/
def State.toneCode (s : State) : Nat :=
  match s.tgn.current with
  | some t => (t.notes.head?.map (·.code)).getD 0
  | none => 0

/-- The frequency of a code in Hz; none for code 0, a rest (R138). -/
def toneHz (code : Nat) : Option Nat := if code = 0 then none else some (185 + 15 * code)

/-- Sample `n` of the tone: silence in a rest or without a tone, else a tone of the note's frequency, whose waveform is free (R138;
log 28). -/
def State.toneSampleAt (s : State) (n : Nat) : Int :=
  match toneHz s.toneCode with
  | some hz => Config.toneSample hz n
  | none => 0

/-- The audio output at sample `k` of the block and sample `n` of the tone: their sum, limited (R137; log 28). -/
def State.audioOut (s : State) (k n : Nat) : Int :=
  limitedOutput
    (attenuatedOr s.speechAttenuation (s.speechSample k) + attenuatedOr s.toneAttenuation (s.toneSampleAt n))

end Sys2Proof.Machine
end

