-- ==== Sys2Proof/Machine/Ticks.lean ====
section
/-! DEFINITION. One step of the 10 ms time base, which the block takes while no command waits (00 "Time"; log 2). Every running timer
counts and stays at its end, since its expiry is a command of the table; what service mode freezes does not count (R177). -/

namespace Sys2Proof.Machine

/-- A count that goes up to an end. -/
def countTo (limit n : Nat) : Nat := min limit (n + 1)

/-- The expiry timer, which keeps its last step for PROMPT_EXPIRY (R20, R26). -/
def expiryTick (frozen : Bool) (left : Option Nat) : Option Nat :=
  if frozen then left else left.map fun n => if n ≤ 1 then n else n - 1

/-- The timers of a prompt (R17, R18, R20). -/
def State.promptTick (s : State) (p : Prompt) : Prompt :=
  { p with
    expiryLeft := expiryTick s.stu.flag p.expiryLeft
    dwellLeft := if s.dwellRuns p then p.dwellLeft - 1 else p.dwellLeft
    repeatTimer := p.repeatTimer.map fun n => n - 1 }

/-- A timer that counts up to a limit in seconds. -/
def Counting.tick (x : Counting) : Counting := { x with elapsed := countTo (x.limit * Config.ticksPerSecond) x.elapsed }

/-- A timer that service mode freezes (R56, R66, R177). -/
def freezable (frozen : Bool) (t : Option Counting) : Option Counting := if frozen then t else t.map Counting.tick

/-- The timers of a side's records (R56, R66, R70). -/
def SideRecords.tick (frozen : Bool) (r : SideRecords) : SideRecords where
  session := { r.session with idle := freezable frozen r.session.idle }
  hold := { r.hold with lapse := freezable frozen r.hold.lapse }
  cycle := { r.cycle with second := r.cycle.second.map (countTo Config.ticksPerSecond) }

/-- The unbound timer (R37). -/
def SideSchedule.tick (x : SideSchedule) : SideSchedule :=
  if x.unbound.running then { x with unbound := ⟨countTo Config.unboundTicks x.unbound.count, true⟩ } else x

/-- Debounce and held time of a key (R75). -/
def KeyRecord.counted (r : KeyRecord) : KeyRecord :=
  match r.state with
  | .idle => r
  | .making n => { r with state := .making (countTo Config.debounceTicks n) }
  | .down => { r with held := countTo Config.holdTicks r.held }
  | .breaking n => { r with state := .breaking (countTo Config.debounceTicks n) }

/-- A key after a step, nothing of it overtaken (log 36). -/
def KeyRecord.tick (r : KeyRecord) : KeyRecord := { r.counted with makeLate := false, breakLate := false }

/-- The keys of a side. -/
def SideKeys.tick (x : SideKeys) : SideKeys := { x with keys := x.keys.mapAll KeyRecord.tick }

/-- The gap timer of a port (R157), no end of it overtaken (log 36). -/
def PortLink.tick (l : PortLink) : PortLink :=
  { l with gap := if l.receive.timed then countTo Config.gapTicks l.gap else l.gap, gapLate := false }

/-- The time left in the note in play (R139). -/
def Tone.tick (t : Tone) : Tone := { t with left := t.left - 1 }

/-- The Tone Generator, no end of a note overtaken (log 36). -/
def ToneGenerator.tick (g : ToneGenerator) : ToneGenerator := { g with current := g.current.map Tone.tick, noteLate := false }

/-- The timers of the Display Controller (R151, R152), no end of the panel-off timer overtaken (log 36). -/
def Display.tick (d : Display) : Display :=
  { d with
    blinkCount := countTo Config.blinkTicks d.blinkCount
    panelOff := d.panelOff.map Counting.tick
    settling := d.settling.map (countTo Config.settlingTicks)
    offLate := false }

/-- The timer of KEY CHECK (R185). -/
def TestResult.tick : TestResult → TestResult
  | .running (.keyCheck d t n) => .running (.keyCheck d (countTo d t) n)
  | r => r

/-- One step of the time base (log 2), which ends the moment in which ends of timers could be overtaken (log 36). -/
def State.tick (s : State) : State :=
  { s with
    lnk := s.lnk.mapAll PortLink.tick
    ignoreLeft := s.ignoreLeft.map fun n => n - 10
    ptb := { s.ptb with prompts := s.ptb.prompts.map s.promptTick }
    sch := { s.sch with sides := s.sch.sides.mapAll SideSchedule.tick }
    scu := s.scu.mapAll (SideRecords.tick s.stu.flag)
    ksc := { s.ksc with sides := s.ksc.sides.mapAll SideKeys.tick }
    spe := { s.spe with recovery := s.spe.recovery.map (countTo Config.recoveryTicks) }
    tgn := s.tgn.tick
    dsp := s.dsp.tick
    stu := { s.stu with result := s.stu.result.tick, checkLate := false }
    overtaken := ⟨.none, .none⟩
    late := ⟨[], [], []⟩ }

end Sys2Proof.Machine
end

