-- ==== Sys2Proof/Machine/Resets.lean ====
section
/-! DEFINITION. The whole-part resets and the end of the link ignore time: POWER_ON_RESET, EXTERNAL_RESET, IGNORE_TIME_END (spec/05
R116 R117, spec/08 R171). The queue and the pins of keys and knobs are not the part's to reset (log 6). -/

namespace Sys2Proof.Machine

/-- A key before scanning begins: its contact, and nothing seen of it yet (R75, R90). -/
def unseenKey (r : KeyRecord) : KeyRecord := ⟨r.closed, .idle, 0, false, false, false⟩

/-- Keys and knob of a side before scanning begins. -/
def unseenSide (x : SideKeys) : SideKeys := ⟨x.keys.mapAll unseenKey, ⟨x.knob.p, x.knob.q, none, false⟩⟩

/-- The bytes of a write that a reset cuts: each the byte that stood there or the one the write carried (R117; log 7). -/
def cutBytes (m : Memory) (page offset free : Nat) (data : List Byte) : List Byte :=
  data.mapIdx fun i b => if Config.cutTakesNew (free + i) then b else readByte m page (offset + i)

/-- The store after the transfer under way is cut, and the counter of free values (R117). -/
def State.cutStore (s : State) : Memory × Nat :=
  match s.psc.transfer with
  | some (.write _ page offset data) | some (.posted _ page offset data) =>
    (writeBytes s.psc.memory page offset (cutBytes s.psc.memory page offset s.free data), s.free + data.length)
  | _ => (s.psc.memory, s.free)

/-- POWER_ON_RESET: every block at its power-on values (R116, R118, R138, R155, R156). -/
def execPowerOnReset (s : State) : Host.Outcome State Fault Refusal :=
  .next (.wholeReset Config.ignorePowerOn [] [] ToneGenerator.builtinPatterns [] Display.identityMap
    (s.ksc.sides.mapAll unseenSide) s.pending s.free)

/-- EXTERNAL_RESET: every block reset, with page contents, directory, tone patterns, font and segment map kept (R116, R117). -/
def execExternalReset (s : State) : Host.Outcome State Fault Refusal :=
  .next (.wholeReset Config.ignoreExternal s.cutStore.1 s.psc.directory s.tgn.patterns s.dsp.font s.dsp.map
    (s.ksc.sides.mapAll unseenSide) s.pending s.cutStore.2)

/-- The unbound timer of a side at the end of the ignore time (R28, R37). -/
def State.unboundBegins (s : State) (sd : Side) : State :=
  if (s.portOf (drumRole sd)).isNone then s.startUnbound sd else s

/-- The ignore time ends: all receivers enter HUNT, scanning begins, the unbound timers start (R75, R77, R171). -/
def State.ignoreEnds (s : State) : State :=
  let s1 := { s with
    ignoreLeft := none
    lnk := s.lnk.mapAll fun l => { l with receive := .hunt, gap := 0 }
    ksc := ⟨true, s.ksc.sides.mapAll scannedSide⟩ }
  (s1.unboundBegins .lower).unboundBegins .upper

/-- IGNORE_TIME_END (R171). -/
def execIgnoreTimeEnd (s : State) : Host.Outcome State Fault Refusal :=
  .next (if s.ignoreLeft.isSome then s.ignoreEnds else s)

end Sys2Proof.Machine
end

