-- ==== Sys2Proof/Machine/LinkCommands.lean ====
section
/-! DEFINITION. The commands of a link: REQUEST_FRAME, BYTE_TAKEN, GAP_TIMER_EXPIRY, FRAME_TRANSMITTED, and the requests of
roles, identity and notices (spec/08). -/

namespace Sys2Proof.Machine

/-- REQUEST_FRAME: a complete request frame is taken (R157 to R162; log 3). -/
def execRequestFrame (p : Port) (body : List Byte) (crc : Word16) (s : State) : Host.Outcome State Fault Refusal :=
  .next (s.frameArrives p body crc)

/-- BYTE_TAKEN (R157). -/
def execByteTaken (p : Port) (byte : Byte) (stopBit : Bool) (s : State) : Host.Outcome State Fault Refusal :=
  .next (s.takeByte p byte stopBit)

/-- GAP_TIMER_EXPIRY: a frame error (R157, R158). -/
def execGapTimerExpiry (p : Port) (s : State) : Host.Outcome State Fault Refusal :=
  .next (s.gapExpires p)

/-- FRAME_TRANSMITTED: a transmit place is freed (R160). -/
def execFrameTransmitted (p : Port) (s : State) : Host.Outcome State Fault Refusal :=
  .next (s.onLink p PortLink.sent)

/-- BIND ROLE (R164). -/
def execBindRole (p : Port) (q : Byte) (role : Byte) (s : State) : Host.Outcome State Fault Refusal :=
  .next (s.requestArrives p q (.bindRole role))

/-- UNBIND ROLE (R165). -/
def execUnbindRole (p : Port) (q : Byte) (s : State) : Host.Outcome State Fault Refusal :=
  .next (s.requestArrives p q .unbindRole)

/-- CLIENT RESET (R166). -/
def execClientReset (p : Port) (q : Byte) (s : State) : Host.Outcome State Fault Refusal :=
  .next (s.requestArrives p q .clientReset)

/-- READ IDENTITY (R170). -/
def execReadIdentity (p : Port) (q : Byte) (s : State) : Host.Outcome State Fault Refusal :=
  .next (s.requestArrives p q .readIdentity)

/-- FETCH NOTICE (R168). -/
def execFetchNotice (p : Port) (q : Byte) (s : State) : Host.Outcome State Fault Refusal :=
  .next (s.requestArrives p q .fetchNotice)

/-- SET ATTENTION MASK (R169). -/
def execSetAttentionMask (p : Port) (q : Byte) (mask : Word16) (s : State) : Host.Outcome State Fault Refusal :=
  .next (s.requestArrives p q (.setAttentionMask mask))

end Sys2Proof.Machine
end

