-- ==== Sys2Proof/Machine/PromptCommands.lean ====
section
/-! DEFINITION. The requests on prompts and the timers of a prompt (spec/01). -/

namespace Sys2Proof.Machine

/-- The expiry timer of a prompt runs and is not frozen (R20, R177). -/
def State.expiryRuns (s : State) (x : Prompt) : Bool := x.expiryLeft.isSome && !s.stu.flag

/-- The end of an expiry timer has come: no note of it is left (log 36). -/
def State.expiryCame (s : State) (slot : Nat) : State :=
  { s with late := { s.late with expiries := s.late.expiries.filter fun n => decide (n ≠ slot) } }

/-- The end of a dwell timer has come. -/
def State.dwellCame (s : State) (slot : Nat) : State :=
  { s with late := { s.late with dwells := s.late.dwells.filter fun n => decide (n ≠ slot) } }

/-- The end of a repeat timer has come. -/
def State.repeatCame (s : State) (slot : Nat) : State :=
  { s with late := { s.late with repeats := s.late.repeats.filter fun n => decide (n ≠ slot) } }

/-- The expiry timer runs out, and the prompt closes (R20); overtaken where the slot's prompt left in the same moment (R11; log 36). -/
def State.expire (s : State) (slot : Nat) : State :=
  if slot ∈ s.late.expiries then s.expiryCame slot
  else
    match s.prompt slot with
    | some x => if s.expiryRuns x then (s.closePrompt slot .expired).expiryCame slot else s
    | none => s

/-- The dwell timer runs out (R18); overtaken where the slot's prompt left in the same moment (R24; log 36). -/
def State.dwellOut (s : State) (slot : Nat) : State :=
  if slot ∈ s.late.dwells then s.dwellCame slot
  else
    match s.prompt slot with
    | some x => if s.dwellRuns x then (s.closePrompt slot .done).dwellCame slot else s
    | none => s

/-- A repeat falls due: the timer stays stopped until it has been delivered (R17). -/
def fallDue (x : Prompt) : Prompt := { x with repeatTimer := none, repeatDue := true }

/-- The repeat timer runs out (R17); overtaken where the slot's prompt left in the same moment, or a replay stopped its timer (R24, R48; log
36). -/
def State.repeatFalls (s : State) (slot : Nat) : State :=
  if slot ∈ s.late.repeats then s.repeatCame slot
  else
    match s.prompt slot with
    | some x => if x.repeatTimer.isSome then (s.onPrompt slot fallDue).settle else s
    | none => s

/-- POST PROMPT (R7 to R11). -/
def execPostPrompt (p : Port) (q : Byte) (body : PromptBody) (s : State) : Host.Outcome State Fault Refusal :=
  .next (s.requestArrives p q (.postPrompt body))

/-- WITHDRAW PROMPT (R22). -/
def execWithdrawPrompt (p : Port) (q : Byte) (tag : Byte) (s : State) : Host.Outcome State Fault Refusal :=
  .next (s.requestArrives p q (.withdrawPrompt tag))

/-- QUERY PROMPT (R26, R187). -/
def execQueryPrompt (p : Port) (q : Byte) (tag : Byte) (s : State) : Host.Outcome State Fault Refusal :=
  .next (s.requestArrives p q (.queryPrompt tag))

/-- LIST PROMPTS (R27). -/
def execListPrompts (p : Port) (q : Byte) (slot : Byte) (s : State) : Host.Outcome State Fault Refusal :=
  .next (s.requestArrives p q (.listPrompts slot))

/-- PROMPT_EXPIRY (R20). -/
def execPromptExpiry (slot : Nat) (s : State) : Host.Outcome State Fault Refusal :=
  .next (s.expire slot)

/-- DWELL_EXPIRY (R18). -/
def execDwellExpiry (slot : Nat) (s : State) : Host.Outcome State Fault Refusal :=
  .next (s.dwellOut slot)

/-- REPEAT_DUE (R17). -/
def execRepeatDue (slot : Nat) (s : State) : Host.Outcome State Fault Refusal :=
  .next (s.repeatFalls slot)

end Sys2Proof.Machine
end

