-- ==== Sys2Proof/Machine/SideCommands.lean ====
section
/-! DEFINITION. The requests on sides and the timers of a side (spec/03, spec/02 R37). -/

namespace Sys2Proof.Machine

/-- The idle timer reaches its timeout; frozen in service mode, and overtaken by a restart or END SESSION in the same moment (R56, R58;
log 36). -/
def State.idleOut (s : State) (sd : Side) : State :=
  if (s.overtaken.get sd).idle then s.onOvertaken sd fun o => { o with idle := false }
  else if (s.records sd).session.active && !s.stu.flag then s.endSession sd .idle
  else s

/-- The lapse timer reaches its end; frozen in service mode, and overtaken by the holder's claim, release or client reset in the same
moment (R65 to R67; log 36). -/
def State.lapseOut (s : State) (sd : Side) : State :=
  if (s.overtaken.get sd).lapse then s.onOvertaken sd fun o => { o with lapse := false }
  else
    match (s.records sd).hold.holder with
    | some h => if s.stu.flag then s else s.lapseHold sd h
    | none => s

/-- A second of a RUNNING side ends, unless a SET CYCLE or the drum's client reset has overtaken it in the same moment (R70, R74; log 36). -/
def State.secondOut (s : State) (sd : Side) : State :=
  if (s.overtaken.get sd).second then s.onOvertaken sd fun o => { o with second := false }
  else if (s.records sd).cycle.running then s.fallCountdown sd
  else s

/-- The unbound timer reaches 5 s, unless a binding has overtaken it in the same moment (R37; log 36). -/
def State.unboundOut (s : State) (sd : Side) : State :=
  if (s.overtaken.get sd).unbound then s.onOvertaken sd fun o => { o with unbound := false }
  else if (s.schedule sd).unbound.running then s.fallbackFalls sd
  else s

/-- START SESSION (R55). -/
def execStartSession (p : Port) (q : Byte) (side : Byte) (s : State) : Host.Outcome State Fault Refusal :=
  .next (s.requestArrives p q (.startSession side))

/-- END SESSION (R58). -/
def execEndSession (p : Port) (q : Byte) (side : Byte) (s : State) : Host.Outcome State Fault Refusal :=
  .next (s.requestArrives p q (.endSession side))

/-- SET LANGUAGE (R59). -/
def execSetLanguage (p : Port) (q : Byte) (side language : Byte) (s : State) : Host.Outcome State Fault Refusal :=
  .next (s.requestArrives p q (.setLanguage side language))

/-- SET SPEECH MODE (R61). -/
def execSetSpeechMode (p : Port) (q : Byte) (side mode : Byte) (s : State) : Host.Outcome State Fault Refusal :=
  .next (s.requestArrives p q (.setSpeechMode side mode))

/-- CLAIM SIDE (R64). -/
def execClaimSide (p : Port) (q : Byte) (side : Byte) (s : State) : Host.Outcome State Fault Refusal :=
  .next (s.requestArrives p q (.claimSide side))

/-- RELEASE SIDE (R65). -/
def execReleaseSide (p : Port) (q : Byte) (side : Byte) (s : State) : Host.Outcome State Fault Refusal :=
  .next (s.requestArrives p q (.releaseSide side))

/-- SET CYCLE (R69). -/
def execSetCycle (p : Port) (q : Byte) (side presence phase : Byte) (countdown : Word16) (run : Byte) (s : State) : Host.Outcome State Fault Refusal :=
  .next (s.requestArrives p q (.setCycle side presence phase countdown run))

/-- READ CYCLE (R73). -/
def execReadCycle (p : Port) (q : Byte) (side : Byte) (s : State) : Host.Outcome State Fault Refusal :=
  .next (s.requestArrives p q (.readCycle side))

/-- IDLE_EXPIRY (R56). -/
def execIdleExpiry (side : Side) (s : State) : Host.Outcome State Fault Refusal :=
  .next (s.idleOut side)

/-- HOLD_LAPSE (R66). -/
def execHoldLapse (side : Side) (s : State) : Host.Outcome State Fault Refusal :=
  .next (s.lapseOut side)

/-- COUNTDOWN_FALL (R70). -/
def execCountdownFall (side : Side) (s : State) : Host.Outcome State Fault Refusal :=
  .next (s.secondOut side)

/-- FALLBACK_DUE (R37). -/
def execFallbackDue (side : Side) (s : State) : Host.Outcome State Fault Refusal :=
  .next (s.unboundOut side)

end Sys2Proof.Machine
end

