-- ==== Sys2Proof/Machine/StoreCommands.lean ====
section
/-! DEFINITION. The requests on the phrase store and the two ends of a bus transfer (spec/05). -/

namespace Sys2Proof.Machine

/-- WRITE PAGE (R103, R105, R106). -/
def execWritePage (p : Port) (q : Byte) (page offset : Word16) (length : Byte) (data : List Byte) (s : State) : Host.Outcome State Fault Refusal :=
  .next (s.requestArrives p q (.writePage page offset length data))

/-- READ PAGE (R103, R104). -/
def execReadPage (p : Port) (q : Byte) (page offset : Word16) (length : Byte) (s : State) : Host.Outcome State Fault Refusal :=
  .next (s.requestArrives p q (.readPage page offset length))

/-- READ POST ERROR (R109). -/
def execReadPostError (p : Port) (q : Byte) (s : State) : Host.Outcome State Fault Refusal :=
  .next (s.requestArrives p q .readPostError)

/-- SET WINDOW (R102). -/
def execSetWindow (p : Port) (q : Byte) (target window flags : Byte) (first last offset : Word16) (s : State) : Host.Outcome State Fault Refusal :=
  .next (s.requestArrives p q (.setWindow target window flags first last offset))

/-- SET PHRASE (R98). -/
def execSetPhrase (p : Port) (q : Byte) (phrase language flags : Byte) (first : Word16) (blocks : Byte) (s : State) : Host.Outcome State Fault Refusal :=
  .next (s.requestArrives p q (.setPhrase phrase language flags first blocks))

/-- READ PHRASE (R99). -/
def execReadPhrase (p : Port) (q : Byte) (phrase language : Byte) (s : State) : Host.Outcome State Fault Refusal :=
  .next (s.requestArrives p q (.readPhrase phrase language))

/-- BUS_GRANT: the arbiter grants the free bus (R107, R110). -/
def execBusGrant (s : State) : Host.Outcome State Fault Refusal :=
  .next s.busGrant

/-- TRANSFER_END (R110). -/
def execTransferEnd (s : State) : Host.Outcome State Fault Refusal :=
  .next s.transferEnd

end Sys2Proof.Machine
end

