-- ==== Sys2Proof/Machine/ServiceCommands.lean ====
section
/-! DEFINITION. The requests of the room controller on configuration, outputs, service mode and tests (spec/09). -/

namespace Sys2Proof.Machine

/-- SET CONFIG (R175, R176). -/
def execSetConfig (p : Port) (q : Byte) (body : ConfigBody) (s : State) : Host.Outcome State Fault Refusal :=
  .next (s.requestArrives p q (.setConfig body))

/-- READ CONFIG (R175). -/
def execReadConfig (p : Port) (q : Byte) (s : State) : Host.Outcome State Fault Refusal :=
  .next (s.requestArrives p q .readConfig)

/-- SET TONE (R138). -/
def execSetTone (p : Port) (q : Byte) (pattern count : Byte) (notes : List (Byte × Byte)) (s : State) : Host.Outcome State Fault Refusal :=
  .next (s.requestArrives p q (.setTone pattern count notes))

/-- SET GLYPH (R148). -/
def execSetGlyph (p : Port) (q : Byte) (code : Byte) (rows : List Byte) (s : State) : Host.Outcome State Fault Refusal :=
  .next (s.requestArrives p q (.setGlyph code rows))

/-- SET SEGMENT MAP (R150). -/
def execSetSegmentMap (p : Port) (q : Byte) (entries : List Byte) (s : State) : Host.Outcome State Fault Refusal :=
  .next (s.requestArrives p q (.setSegmentMap entries))

/-- ENTER SERVICE (R177). -/
def execEnterService (p : Port) (q : Byte) (s : State) : Host.Outcome State Fault Refusal :=
  .next (s.requestArrives p q .enterService)

/-- LEAVE SERVICE (R178). -/
def execLeaveService (p : Port) (q : Byte) (s : State) : Host.Outcome State Fault Refusal :=
  .next (s.requestArrives p q .leaveService)

/-- LAMP TEST (R179). -/
def execLampTest (p : Port) (q : Byte) (lamp blank : Byte) (s : State) : Host.Outcome State Fault Refusal :=
  .next (s.requestArrives p q (.lampTest lamp blank))

/-- STORE SUM: SELF TEST with test 1 (R181, R182). -/
def execStoreSum (p : Port) (q : Byte) (a b : Word16) (s : State) : Host.Outcome State Fault Refusal :=
  .next (s.requestArrives p q (.selfTest (testCode .storeSum) a b))

/-- SPEECH CHECK: SELF TEST with test 2 (R181, R183). -/
def execSpeechCheck (p : Port) (q : Byte) (a b : Word16) (s : State) : Host.Outcome State Fault Refusal :=
  .next (s.requestArrives p q (.selfTest (testCode .speechCheck) a b))

/-- DIRECTORY CHECK: SELF TEST with test 3 (R181, R184). -/
def execDirectoryCheck (p : Port) (q : Byte) (a b : Word16) (s : State) : Host.Outcome State Fault Refusal :=
  .next (s.requestArrives p q (.selfTest (testCode .directoryCheck) a b))

/-- KEY CHECK: SELF TEST with test 4 (R181, R185). -/
def execKeyCheck (p : Port) (q : Byte) (a b : Word16) (s : State) : Host.Outcome State Fault Refusal :=
  .next (s.requestArrives p q (.selfTest (testCode .keyCheck) a b))

/-- KEY_CHECK_END: the duration has run (R185). -/
def execKeyCheckEnd (s : State) : Host.Outcome State Fault Refusal :=
  .next s.endKeyCheck

/-- READ TEST RESULT (R181). -/
def execReadTestResult (p : Port) (q : Byte) (s : State) : Host.Outcome State Fault Refusal :=
  .next (s.requestArrives p q .readTestResult)

/-- AUDITION (R180). -/
def execAudition (p : Port) (q : Byte) (phrase language : Byte) (s : State) : Host.Outcome State Fault Refusal :=
  .next (s.requestArrives p q (.audition phrase language))

/-- RESTORE SPEECH (R133). -/
def execRestoreSpeech (p : Port) (q : Byte) (s : State) : Host.Outcome State Fault Refusal :=
  .next (s.requestArrives p q .restoreSpeech)

end Sys2Proof.Machine
end

