-- ==== Sys2Proof/Machine/KeyCommands.lean ====
section
/-! DEFINITION. The events of contacts and knobs (spec/04). -/

namespace Sys2Proof.Machine

/-- KEY_CONTACT_CHANGE (R75). -/
def execKeyContactChange (side : Side) (key : Key) (closed : Bool) (s : State) : Host.Outcome State Fault Refusal :=
  .next (s.moveContact side key closed)

/-- MAKE_CONFIRMED (R75, R78, R79). -/
def execMakeConfirmed (side : Side) (key : Key) (s : State) : Host.Outcome State Fault Refusal :=
  .next (s.confirmMake side key)

/-- PRESS (R76, R78). -/
def execPress (side : Side) (key : Key) (s : State) : Host.Outcome State Fault Refusal :=
  .next (s.pressKey side key)

/-- HOLD (R76, R78). -/
def execHold (side : Side) (key : Key) (s : State) : Host.Outcome State Fault Refusal :=
  .next (s.holdKey side key)

/-- BREAK_CONFIRMED (R75, R76). -/
def execBreakConfirmed (side : Side) (key : Key) (s : State) : Host.Outcome State Fault Refusal :=
  .next (s.confirmBreak side key)

/-- KNOB_PHASE_CHANGE (R77, R85). -/
def execKnobPhaseChange (side : Side) (pClosed qClosed : Bool) (s : State) : Host.Outcome State Fault Refusal :=
  .next (s.moveKnob side pClosed qClosed)

end Sys2Proof.Machine
end

