-- ==== Sys2Proof/Machine/OutputCommands.lean ====
section
/-! DEFINITION. The events of speech, tone and panel (spec/06, spec/07). -/

namespace Sys2Proof.Machine

/-- A turn of a prompt that a SAFETY candidate takes at the end of the block or piece in play (R45, R135). -/
def State.cutTurn (s : State) : State :=
  match s.speaker with
  | some (p, k) => s.preemptTurn p k
  | none => s

/-- The page of a block is left: it is the phrase's last block, or the last one on its page (R111, R127). -/
def leavesPage (r : Resolution) (k : Nat) : Bool :=
  decide (r.blocks ≤ k + 1) || decide (recordSlot (k + 1) = Config.slotsPerPage - 1)

/-- The block after one that has been played: the phrase's next, or the word's end (R122, R123). -/
def afterBlock (r : Resolution) (k : Nat) (e : ElementInPlay) : ElementInPlay :=
  let e := { e with samples := [] }
  if r.blocks ≤ k + 1 then nextWord e else { e with at_ := .ready (k + 1) }

/-- A block of a resolved word has been played (R111, R128, R130; log 23). -/
def State.blockPlayed (s : State) (r : Resolution) (k : Nat) : State :=
  let s1 := if leavesPage r k then s.unpin else s
  let s2 := if r.blocks ≤ k + 1 then s1.cleanPhrase else s1
  if s2.sch.safetyCut then s2.cutTurn else s2.onElement (afterBlock r k)

/-- A 15 ms block finishes playing (R128). -/
def State.blockEnd (s : State) : State :=
  match s.spe.channel, s.spe.element with
  | .speaking, some e =>
    match e.at_, e.rest with
    | .block k, w :: _ =>
      match w.res with
      | some r => (s.blockPlayed r k).settle
      | none => s
    | _, _ => s
  | _, _ => s

/-- The length of a piece of a pause, in ms (R125). -/
def pieceMs : Nat := 15

/-- A pause after one of its pieces (R125). -/
def afterPiece (left : Nat) (e : ElementInPlay) : ElementInPlay :=
  if left ≤ pieceMs then { e with at_ := .word } else { e with at_ := .pause (left - pieceMs) }

/-- A piece of a pause ends (R125, R135). -/
def State.pieceEnd (s : State) : State :=
  match s.spe.channel, s.spe.element with
  | .speaking, some e =>
    match e.at_ with
    | .pause left => (if s.sch.safetyCut then s.cutTurn else s.onElement (afterPiece left)).settle
    | .word | .ready _ | .block _ => s
  | _, _ => s

/-- The note in play ends (R139), unless a replacement of its tone has overtaken that in the same moment (R140; log 36). -/
def State.noteEnd (s : State) : State :=
  if s.tgn.noteLate then { s with tgn := { s.tgn with noteLate := false } }
  else { s with tgn := { s.tgn with current := s.tgn.current.bind nextNote } }

/-- The display is drawn (R148, R152, R154). Backlight and driver follow the power state and the overrides at the refresh, as the dots do,
the model's choice (log 53). -/
def State.refresh (s : State) : State := { s with dsp := { s.dsp with panel := s.shownPanel } }

/-- The blink clock moves to its other half (R151). -/
def State.blinkHalf (s : State) : State := { s with dsp := { s.dsp with blinkLit := !s.dsp.blinkLit, blinkCount := 0 } }

/-- The panel-off timer reaches the delay in DIM (R152), unless a side gone ACTIVE has overtaken that in the same moment (log 36). -/
def State.darken (s : State) : State :=
  if s.dsp.offLate then { s with dsp := { s.dsp with offLate := false } }
  else if s.dsp.power = .dim then { s with dsp := { s.dsp with power := .off, panelOff := none } }
  else s

/-- The settling timer reaches 100 ms (R152). -/
def State.settlingOut (s : State) : State := if s.dsp.power = .settling then s.settled else s

/-- BLOCK_END (R128). -/
def execBlockEnd (s : State) : Host.Outcome State Fault Refusal :=
  .next s.blockEnd

/-- PAUSE_PIECE_END (R125). -/
def execPausePieceEnd (s : State) : Host.Outcome State Fault Refusal :=
  .next s.pieceEnd

/-- RECOVERY_END (R132). -/
def execRecoveryEnd (s : State) : Host.Outcome State Fault Refusal :=
  .next s.recoveryEnd

/-- TONE_NOTE_END (R139). -/
def execToneNoteEnd (s : State) : Host.Outcome State Fault Refusal :=
  .next s.noteEnd

/-- DISPLAY_REFRESH (R148). -/
def execDisplayRefresh (s : State) : Host.Outcome State Fault Refusal :=
  .next s.refresh

/-- BLINK_HALF (R151). -/
def execBlinkHalf (s : State) : Host.Outcome State Fault Refusal :=
  .next s.blinkHalf

/-- PANEL_OFF (R152). -/
def execPanelOff (s : State) : Host.Outcome State Fault Refusal :=
  .next s.darken

/-- SETTLING_END (R152). -/
def execSettlingEnd (s : State) : Host.Outcome State Fault Refusal :=
  .next s.settlingOut

end Sys2Proof.Machine
end

