-- ==== Sys2Proof/Machine/Dispatch.lean ====
section
/-! DEFINITION. The meaning of each command: one arm for each constructor of Instr, in the order of the table. -/

namespace Sys2Proof.Machine

/-- The effect of a command on everything but the queue. -/
def exec (i : Instr) (s : State) : Host.Outcome State Fault Refusal :=
  match i with
  | .powerOnReset => Sys2Proof.Machine.execPowerOnReset s
  | .externalReset => Sys2Proof.Machine.execExternalReset s
  | .ignoreTimeEnd => Sys2Proof.Machine.execIgnoreTimeEnd s
  | .requestFrame p body crc => Sys2Proof.Machine.execRequestFrame p body crc s
  | .gapTimerExpiry p => Sys2Proof.Machine.execGapTimerExpiry p s
  | .frameTransmitted p => Sys2Proof.Machine.execFrameTransmitted p s
  | .bindRole p q role => Sys2Proof.Machine.execBindRole p q role s
  | .unbindRole p q => Sys2Proof.Machine.execUnbindRole p q s
  | .clientReset p q => Sys2Proof.Machine.execClientReset p q s
  | .readIdentity p q => Sys2Proof.Machine.execReadIdentity p q s
  | .fetchNotice p q => Sys2Proof.Machine.execFetchNotice p q s
  | .setAttentionMask p q mask => Sys2Proof.Machine.execSetAttentionMask p q mask s
  | .postPrompt p q body => Sys2Proof.Machine.execPostPrompt p q body s
  | .withdrawPrompt p q tag => Sys2Proof.Machine.execWithdrawPrompt p q tag s
  | .queryPrompt p q tag => Sys2Proof.Machine.execQueryPrompt p q tag s
  | .listPrompts p q slot => Sys2Proof.Machine.execListPrompts p q slot s
  | .startSession p q side => Sys2Proof.Machine.execStartSession p q side s
  | .endSession p q side => Sys2Proof.Machine.execEndSession p q side s
  | .setLanguage p q side language => Sys2Proof.Machine.execSetLanguage p q side language s
  | .setSpeechMode p q side mode => Sys2Proof.Machine.execSetSpeechMode p q side mode s
  | .claimSide p q side => Sys2Proof.Machine.execClaimSide p q side s
  | .releaseSide p q side => Sys2Proof.Machine.execReleaseSide p q side s
  | .setCycle p q side presence phase countdown run => Sys2Proof.Machine.execSetCycle p q side presence phase countdown run s
  | .readCycle p q side => Sys2Proof.Machine.execReadCycle p q side s
  | .writePage p q page offset length data => Sys2Proof.Machine.execWritePage p q page offset length data s
  | .readPage p q page offset length => Sys2Proof.Machine.execReadPage p q page offset length s
  | .readPostError p q => Sys2Proof.Machine.execReadPostError p q s
  | .setWindow p q target window flags first last offset => Sys2Proof.Machine.execSetWindow p q target window flags first last offset s
  | .setPhrase p q phrase language flags first blocks => Sys2Proof.Machine.execSetPhrase p q phrase language flags first blocks s
  | .readPhrase p q phrase language => Sys2Proof.Machine.execReadPhrase p q phrase language s
  | .setConfig p q body => Sys2Proof.Machine.execSetConfig p q body s
  | .readConfig p q => Sys2Proof.Machine.execReadConfig p q s
  | .setTone p q pattern count notes => Sys2Proof.Machine.execSetTone p q pattern count notes s
  | .setGlyph p q code rows => Sys2Proof.Machine.execSetGlyph p q code rows s
  | .setSegmentMap p q entries => Sys2Proof.Machine.execSetSegmentMap p q entries s
  | .enterService p q => Sys2Proof.Machine.execEnterService p q s
  | .leaveService p q => Sys2Proof.Machine.execLeaveService p q s
  | .lampTest p q lamp blank => Sys2Proof.Machine.execLampTest p q lamp blank s
  | .storeSum p q a b => Sys2Proof.Machine.execStoreSum p q a b s
  | .speechCheck p q a b => Sys2Proof.Machine.execSpeechCheck p q a b s
  | .directoryCheck p q a b => Sys2Proof.Machine.execDirectoryCheck p q a b s
  | .keyCheck p q a b => Sys2Proof.Machine.execKeyCheck p q a b s
  | .keyCheckEnd => Sys2Proof.Machine.execKeyCheckEnd s
  | .readTestResult p q => Sys2Proof.Machine.execReadTestResult p q s
  | .audition p q phrase language => Sys2Proof.Machine.execAudition p q phrase language s
  | .restoreSpeech p q => Sys2Proof.Machine.execRestoreSpeech p q s
  | .keyContactChange side key closed => Sys2Proof.Machine.execKeyContactChange side key closed s
  | .makeConfirmed side key => Sys2Proof.Machine.execMakeConfirmed side key s
  | .press side key => Sys2Proof.Machine.execPress side key s
  | .hold side key => Sys2Proof.Machine.execHold side key s
  | .knobPhaseChange side pClosed qClosed => Sys2Proof.Machine.execKnobPhaseChange side pClosed qClosed s
  | .promptExpiry slot => Sys2Proof.Machine.execPromptExpiry slot s
  | .dwellExpiry slot => Sys2Proof.Machine.execDwellExpiry slot s
  | .repeatDue slot => Sys2Proof.Machine.execRepeatDue slot s
  | .idleExpiry side => Sys2Proof.Machine.execIdleExpiry side s
  | .holdLapse side => Sys2Proof.Machine.execHoldLapse side s
  | .countdownFall side => Sys2Proof.Machine.execCountdownFall side s
  | .fallbackDue side => Sys2Proof.Machine.execFallbackDue side s
  | .panelOff => Sys2Proof.Machine.execPanelOff s
  | .settlingEnd => Sys2Proof.Machine.execSettlingEnd s
  | .recoveryEnd => Sys2Proof.Machine.execRecoveryEnd s
  | .displayRefresh => Sys2Proof.Machine.execDisplayRefresh s
  | .blinkHalf => Sys2Proof.Machine.execBlinkHalf s
  | .toneNoteEnd => Sys2Proof.Machine.execToneNoteEnd s
  | .busGrant => Sys2Proof.Machine.execBusGrant s
  | .transferEnd => Sys2Proof.Machine.execTransferEnd s
  | .blockEnd => Sys2Proof.Machine.execBlockEnd s
  | .pausePieceEnd => Sys2Proof.Machine.execPausePieceEnd s
  | .byteTaken p byte stopBit => Sys2Proof.Machine.execByteTaken p byte stopBit s
  | .breakConfirmed side key => Sys2Proof.Machine.execBreakConfirmed side key s

end Sys2Proof.Machine
end

