-- ==== Sys2Proof/Safety.lean ====
section
/-! DEFINITION. What can stop the machine: nothing. Its Fault type has no constructor, and no meaning answers with a refusal (log 31).
And what the presentation of prompts (regions, speech, tones, renders) leaves as it was, as a relation between two states. -/

namespace Sys2Proof.Machine

/-- An outcome that is a next state. -/
def goesOn (o : Host.Outcome State Fault Refusal) : Prop := ∃ t, o = .next t

/-- The machine never stops: every step of every state answers a next state. -/
def Safe : Prop := ∀ s : State, goesOn (step s)

/-- What a prompt record keeps from its acceptance to its closure: the fields of R1 that no presentation changes, its expiry timer,
sequence number and slot among them; the other fields are set to fixed values. -/
def Prompt.posted (p : Prompt) : Prompt :=
  { p with
    state := .queued, elemIndex := 0, latch := none, spokenOnce := false, hasSpoken := false, repeatsLeft := 0
    dwellLeft := 0, repeatTimer := none, repeatDue := false, repeatStarted := false }

/-- A transfer without the mark that its bytes will be discarded (R143). -/
def Transfer.plain : Transfer → Transfer
  | .display sd page _ => .display sd page false
  | t => t

/-- A buffered write, telling only whether it is under way (R106). -/
def Posted.plain (w : Posted) : Posted := { w with cond := if w.cond = .underWay then .underWay else .claiming }

/-- A port's records of the PSC with the buffered write so told. -/
def PortStore.plain (x : PortStore) : PortStore := { x with posted := x.posted.map Posted.plain }

/-- A queue after some notices were offered to it, one after the other (R167). -/
def NoticeQueue.offered (q : NoticeQueue) (ns : List Notice) : NoticeQueue :=
  ns.foldl (fun q n => q.setNotices (pushNotice q.notices n)) q

/-- `t` comes from `s` by presentation alone: scheduling, speech, tones and renders. The live prompts stay, with their slots and
their order; a queue changes by offers alone, and not at all where the port holds no role; a page is newly pinned only where no
write is pending on it; a replay may stop a repeat timer at its end; the links, the side records, the keys, the store and the settings stay. -/
structure Presents (s t : State) : Prop where
  lnk : t.lnk = s.lnk
  ignoreLeft : t.ignoreLeft = s.ignoreLeft
  cfg : t.cfg = s.cfg
  scu : t.scu = s.scu
  ksc : t.ksc = s.ksc
  pending : t.pending = s.pending
  free : t.free = s.free
  counter : t.ptb.counter = s.ptb.counter
  prompts : t.ptb.prompts.map Prompt.posted = s.ptb.prompts.map Prompt.posted
  queues : ∀ p, ∃ ns, t.nq.get p = (s.nq.get p).offered ns ∧ ((s.link p).role = none → ns = [])
  memory : t.psc.memory = s.psc.memory
  directory : t.psc.directory = s.psc.directory
  lastServed : t.psc.lastServed = s.psc.lastServed
  transfer : t.psc.transfer.map Transfer.plain = s.psc.transfer.map Transfer.plain
  ports : ∀ p, (t.psc.ports.get p).plain = (s.psc.ports.get p).plain
  pin : ∀ page, t.spe.pin = some page → s.spe.pin = some page ∨ s.hasPending page = false
  patterns : t.tgn.patterns = s.tgn.patterns
  display : { t.dsp with regions := s.dsp.regions } = s.dsp
  flag : t.stu.flag = s.stu.flag
  result : t.stu.result = s.stu.result
  checked : t.stu.checkLate = s.stu.checkLate
  overtaken : t.overtaken = s.overtaken
  late : ∃ l, t.late = { s.late with repeats := s.late.repeats ++ l }

end Sys2Proof.Machine
end

