-- ==== Sys2Proof/Certificates/Slice0/Obligations.lean ====
section
/-! DEFINITION. The statements about the model. Each says for every state what a command leaves, and what every step keeps. Words
used below: `answered` is the state after a request got its response, `ready` says that a request is taken and answered at once,
`Presents u t` (Safety.lean) that `t` differs from `u` by presentation alone, `changesOnly` names the blocks that may differ. -/

namespace Sys2Proof.Claims

open Sys2Proof.Machine

/-- The parts of the state. -/
inductive Block
  | links | notices | ignoreTime | config | prompts | scheduler | sides | keys | store | speech | tones | display | service
  | overtaken | queue | freeValues
  deriving DecidableEq, Repr

/-- A part is the same in two states. -/
def Block.same (s t : State) : Block → Prop
  | .links => t.lnk = s.lnk
  | .notices => t.nq = s.nq
  | .ignoreTime => t.ignoreLeft = s.ignoreLeft
  | .config => t.cfg = s.cfg
  | .prompts => t.ptb = s.ptb
  | .scheduler => t.sch = s.sch
  | .sides => t.scu = s.scu
  | .keys => t.ksc = s.ksc
  | .store => t.psc = s.psc
  | .speech => t.spe = s.spe
  | .tones => t.tgn = s.tgn
  | .display => t.dsp = s.dsp
  | .service => t.stu = s.stu
  | .overtaken => t.overtaken = s.overtaken ∧ t.late = s.late
  | .queue => t.pending = s.pending
  | .freeValues => t.free = s.free

/-- Two states differ in these parts at most. -/
def changesOnly (l : List Block) (s t : State) : Prop := ∀ b, b ∉ l → b.same s t

/-- A request of this code, from this port, is taken and can be answered at once: the receiver takes frames (R157), no request is in
work (R161), the kept transmit place is free (R160), and the checks of R162 steps 1 to 4 pass. -/
def ready (s : State) (p : Port) (code : Byte) : Prop :=
  (s.link p).receive ≠ .ignore ∧ (s.link p).inWork = none ∧ (s.link p).keptTaken = false ∧ s.codeCheck p code = none

/-- A port's link whose receiver enters a state, its gap timer at 0; an end of the timer that falls together with that is noted as
overtaken (R157; log 36). -/
def heard (l : PortLink) (r : Receive) : PortLink :=
  { l with receive := r, gap := 0, gapLate := l.gapLate || decide (l.receive ≠ .ignore ∧ l.receive ≠ .hunt ∧ 2 ≤ l.gap) }

/-- A port's link after its request has been taken and answered: the receiver is in HUNT, nothing is in work, and the response stands
at the tail of the transmit queue (R157, R159, R160). -/
def answeredLink (l : PortLink) (code seq : Byte) (st : Status) (body : List Byte) : PortLink :=
  { heard l .hunt with inWork := none, transmit := l.transmit ++ [⟨code ||| 0x80, seq, st, body, true⟩] }

/-- The state after a request was answered; nothing else of it changes. -/
def answered (s : State) (p : Port) (code seq : Byte) (st : Status) (body : List Byte) : State :=
  { s with lnk := s.lnk.update p fun l => answeredLink l code seq st body }

/-- The state after a request was taken and stays in work (R161); nothing else of it changes. -/
def inWorkWith (s : State) (p : Port) (code seq : Byte) (w : Work) : State :=
  { s with lnk := s.lnk.update p fun l => { heard l .hunt with inWork := some ⟨code, seq, w⟩ } }

/-- The port, sequence byte and request of a request row of the table. -/
def requestOf : Instr → Option (Port × Byte × Request)
  | .bindRole p q role => some (p, q, .bindRole role)
  | .unbindRole p q => some (p, q, .unbindRole)
  | .clientReset p q => some (p, q, .clientReset)
  | .readIdentity p q => some (p, q, .readIdentity)
  | .fetchNotice p q => some (p, q, .fetchNotice)
  | .setAttentionMask p q m => some (p, q, .setAttentionMask m)
  | .postPrompt p q b => some (p, q, .postPrompt b)
  | .withdrawPrompt p q t => some (p, q, .withdrawPrompt t)
  | .queryPrompt p q t => some (p, q, .queryPrompt t)
  | .listPrompts p q n => some (p, q, .listPrompts n)
  | .startSession p q sd => some (p, q, .startSession sd)
  | .endSession p q sd => some (p, q, .endSession sd)
  | .setLanguage p q sd l => some (p, q, .setLanguage sd l)
  | .setSpeechMode p q sd m => some (p, q, .setSpeechMode sd m)
  | .claimSide p q sd => some (p, q, .claimSide sd)
  | .releaseSide p q sd => some (p, q, .releaseSide sd)
  | .setCycle p q sd pr ph c r => some (p, q, .setCycle sd pr ph c r)
  | .readCycle p q sd => some (p, q, .readCycle sd)
  | .writePage p q g o n d => some (p, q, .writePage g o n d)
  | .readPage p q g o n => some (p, q, .readPage g o n)
  | .readPostError p q => some (p, q, .readPostError)
  | .setWindow p q t w f a b o => some (p, q, .setWindow t w f a b o)
  | .setPhrase p q n l f a b => some (p, q, .setPhrase n l f a b)
  | .readPhrase p q n l => some (p, q, .readPhrase n l)
  | .setConfig p q b => some (p, q, .setConfig b)
  | .readConfig p q => some (p, q, .readConfig)
  | .setTone p q n c l => some (p, q, .setTone n c l)
  | .setGlyph p q c r => some (p, q, .setGlyph c r)
  | .setSegmentMap p q e => some (p, q, .setSegmentMap e)
  | .enterService p q => some (p, q, .enterService)
  | .leaveService p q => some (p, q, .leaveService)
  | .lampTest p q l b => some (p, q, .lampTest l b)
  | .storeSum p q a b => some (p, q, .selfTest 1 a b)
  | .speechCheck p q a b => some (p, q, .selfTest 2 a b)
  | .directoryCheck p q a b => some (p, q, .selfTest 3 a b)
  | .keyCheck p q a b => some (p, q, .selfTest 4 a b)
  | .readTestResult p q => some (p, q, .readTestResult)
  | .audition p q n l => some (p, q, .audition n l)
  | .restoreSpeech p q => some (p, q, .restoreSpeech)
  | _ => none

/-- The notices of a port. -/
def noticesOf (s : State) (p : Port) : List Notice := (s.nq.get p).notices

/-- Whether no two live prompts share a slot (R12). -/
def slotsDistinct (s : State) : Prop := (s.ptb.prompts.map (·.slot)).Nodup

/-- The live prompts as they were posted, in posting order. -/
def postedPrompts (s : State) : List Prompt := s.ptb.prompts.map Prompt.posted

/-- Whether a timer that counts up runs and stands at its end. -/
def atEnd (x : Option Counting) : Bool := x.any fun y => decide (y.limit * 100 ≤ y.elapsed)

/-- A side's idle timer about to stop: an expiry that falls together with that is noted as overtaken (R58; log 36). -/
def idleOvertaken (s : State) (sd : Side) : State :=
  s.onOvertaken sd fun o => { o with idle := o.idle || atEnd (s.records sd).session.idle }

/-- A side's idle timer restarted with the timeout configured; an expiry that falls together with the restart is noted as overtaken
(R56; log 36). -/
def idleRestarted (s : State) (sd : Side) : State :=
  (s.onSession sd fun x => { x with idle := some ⟨0, s.cfg.idleTimeout⟩ }).onOvertaken sd fun o =>
    { o with idle := o.idle || atEnd (s.records sd).session.idle }

/-- A side claimed again by its holder: the lapse timer starts again, and a lapse that falls together with the claim is noted as overtaken
(R64, R66; log 36). -/
def holdRenewed (s : State) (sd : Side) (p : Port) : State :=
  (s.onHold sd fun _ => ⟨some p, some ⟨0, s.cfg.holdLapse⟩⟩).onOvertaken sd fun o =>
    { o with lapse := o.lapse || atEnd (s.records sd).hold.lapse }

/-- A side released by its holder or freed by a client reset; a lapse that falls together with that is noted as overtaken (R65, R67; log
36). -/
def holdReleased (s : State) (sd : Side) : State :=
  (s.onHold sd fun _ => ⟨none, none⟩).onOvertaken sd fun o => { o with lapse := o.lapse || atEnd (s.records sd).hold.lapse }

/-- Whether the second of a cycle record stands at its end and a new record restarts or stops it (R70, R74). -/
def secondTaken (old new : Cycle) : Bool := old.second.any (fun n => decide (100 ≤ n)) && decide (new.second ≠ old.second)

/-- A side's cycle record rewritten; a fall that falls together with a write that restarts or stops the second is noted as overtaken
(R70; log 36). -/
def cycleRewritten (s : State) (sd : Side) (c : Cycle) : State :=
  (s.onCycle sd fun _ => c).onOvertaken sd fun o =>
    { o with second := o.second || secondTaken (s.records sd).cycle c }

/-- The notices that a session's end offers a port (R23, R57, R60): CLOSED (UNANSWERED) for each of its ACTION and CONFIRM prompts of the
side in posting order, then SESSION (ended) if its mask enables that. -/
def sessionNotices (s : State) (sd : Side) (p : Port) (cause : Word16) : List Notice :=
  ((s.ptb.prompts.filter fun x => decide (x.side = sd ∧ (x.cls = .action ∨ x.cls = .confirm) ∧ x.owner = p)).map fun x =>
    ⟨.closed, some sd, some x.tag, 7, 0, false⟩) ++
  if (s.nq.get p).mask.getLsbD 5 = true then [⟨.session, some sd, none, 2, cause, false⟩] else []

/-- Each bound port was offered the notices of a session's end, in their order. -/
def sessionNoticed (s t : State) (sd : Side) (cause : Word16) : Prop :=
  ∀ p, (s.link p).role ≠ none → ∃ ns, t.nq.get p = (s.nq.get p).offered ns ∧ (sessionNotices s sd p cause).Sublist ns

/-- The panel's power state and timers after a side was reported ACTIVE (R152); an end of the panel-off timer that falls together with that
is noted as overtaken (log 36). -/
def panelWoken (d : Display) : Display :=
  match d.power with
  | .dim => { d with power := .on, panelOff := none, offLate := d.offLate || atEnd d.panelOff }
  | .off => { d with power := .settling, settling := some 0 }
  | .on | .settling => d

/-- A session begun on a side: ACTIVE, idle timer at 0, SESSION (began) to the ports whose mask enables it, the panel woken (R54,
R60, R152); the renders of the wake are presentation. -/
def sessionBegun (s : State) (sd : Side) : State :=
  let u := (s.onSession sd fun x => { x with active := true, idle := some ⟨0, s.cfg.idleTimeout⟩ }).offerMasked
    ⟨.session, some sd, none, 1, (fourCode (s.records sd).session.language).setWidth 16, false⟩
  { u with dsp := panelWoken u.dsp }

/-- The panel's power state after a side was reported ASLEEP (R152). -/
def panelRested (s : State) (sd : Side) : Display :=
  if s.dsp.power = .on ∧ (s.records (otherSide sd)).session.active = false then
    { s.dsp with power := .dim, panelOff := some ⟨0, s.cfg.panelOff⟩ }
  else s.dsp

/-- The slots of prompts that leave with their expiry timers running and at their ends, whose expiries do not fall (R11, R20; log 36). -/
def expiriesLate (s : State) (l : List Prompt) : List Nat :=
  if s.stu.flag = true then [] else (l.filter fun x => x.expiryLeft.any fun n => decide (n ≤ 1)).map (·.slot)

/-- The slots of INFO prompts that leave with their dwell timers running and at their ends (R18, R24; log 36). -/
def dwellsLate (s : State) (l : List Prompt) : List Nat :=
  (l.filter fun x => decide (x.cls = .info ∧ x.state = .granted .dwelling ∧ x.dwellLeft = 0 ∧
    s.sch.turn ≠ some (.prompt x.slot .replay))).map (·.slot)

/-- The notes of a state with those of prompts that leave added: expiries and dwells, and repeat timers at their ends (R24; log 36). -/
def timersLate (s : State) (l : List Prompt) : LateEnds :=
  ⟨s.late.expiries ++ expiriesLate s l, s.late.dwells ++ dwellsLate s l,
    s.late.repeats ++ (l.filter fun x => decide (x.repeatTimer = some 0)).map (·.slot)⟩

/-- The notes of a state after prompts have left another one; replays granted since may have stopped repeats at their ends (R48; log 36). -/
def lateAfter (s t : State) (l : List Prompt) : Prop :=
  ∃ r, t.late = { timersLate s l with repeats := (timersLate s l).repeats ++ r }

/-- A session ended on a side, but for its notices: ASLEEP, idle timer stopped, house values, the panel rested, the ACTION and CONFIRM
prompts of the side gone (R57, R23, R152). -/
def sessionOver (s : State) (sd : Side) : State :=
  let u := s.onSession sd fun _ => ⟨false, s.cfg.language, s.cfg.mode, s.cfg.volume, none⟩
  let gone := s.ptb.prompts.filter fun x => decide (x.side = sd ∧ (x.cls = .action ∨ x.cls = .confirm))
  let v : State := { u with
    dsp := panelRested s sd
    late := { s.late with expiries := s.late.expiries ++ expiriesLate s gone } }
  v.setPrompts (s.ptb.prompts.filter fun x => decide (¬ (x.side = sd ∧ (x.cls = .action ∨ x.cls = .confirm))))

/-- A prompt gone from the table, with CLOSED offered to its owner: outcome and detail 2 as given (R24). -/
def promptGone (s : State) (x : Prompt) (outcome : Byte) (detail : Word16) : State :=
  ({ s with
    ptb := { s.ptb with prompts := s.ptb.prompts.filter fun y => decide (y.slot ≠ x.slot) }
    late := timersLate s [x] }).offer x.owner
      ⟨.closed, some x.side, some x.tag, outcome, detail, false⟩

end Sys2Proof.Claims

namespace Sys2Proof.Claims

open Sys2Proof.Machine

/-- A port's link after a frame error: HUNT, and a FRAME_ERROR response if one of the three places is free (R158, R160). -/
def frameErrorLink (l : PortLink) : PortLink :=
  { heard l .hunt with
    transmit := if (l.transmit.filter fun f => !f.kept).length < 3 then l.transmit ++ [⟨0, 0, .frameError, [], false⟩] else l.transmit }

/-- A port's link after a request was turned away while one is in work: BUSY if one of the three places is free (R160, R161). -/
def busyLink (l : PortLink) (code seq : Byte) : PortLink :=
  { heard l .hunt with
    transmit :=
      if (l.transmit.filter fun f => !f.kept).length < 3 then l.transmit ++ [⟨code ||| 0x80, seq, .busy, [], false⟩]
      else l.transmit }

/-- A port's link after the frame being sent has left and a response `g` that waits takes the kept place if it is free (R160). -/
def placedLink (l : PortLink) (g : Frame) : PortLink :=
  if (l.transmit.tail.any fun f => f.kept) = true then { l with transmit := l.transmit.tail }
  else { l with inWork := none, transmit := l.transmit.tail ++ [g] }

/-- The state after a frame error on a port; nothing else of it changes. -/
def afterFrameError (s : State) (p : Port) : State := { s with lnk := s.lnk.update p frameErrorLink }

/-- The state after the gap timer of a port has ended: a frame error, no end of it left to come (R157, R158). -/
def gapOver (s : State) (p : Port) : State := { s with lnk := s.lnk.update p fun l => { frameErrorLink l with gapLate := false } }

/-- The state with a port's receiver in another state, its gap timer at 0. -/
def receiving (s : State) (p : Port) (r : Receive) : State := { s with lnk := s.lnk.update p fun l => heard l r }

/-- Whether a running test is a KEY CHECK whose timer stands at its end (R185). -/
def checkEnded : Running → Bool
  | .keyCheck d n _ => decide (d ≤ n)
  | .storeSum _ _ _ _ => false
  | .speechCheck _ _ _ => false

/-- The requests a role may not send (R163). -/
def mayNotSend (r : Role) (code : Byte) : Prop :=
  match r with
  | .lowerDrum | .upperDrum => code = 0x33 ∨ code = 0x34 ∨ (0x40 ≤ code.toNat ∧ code.toNat ≤ 0x56)
  | .payment => code = 0x26 ∨ code = 0x33 ∨ code = 0x34 ∨ (0x40 ≤ code.toNat ∧ code.toNat ≤ 0x56)
  | .room => code = 0x26

/-- A queue after a notice was offered, by the table of R167. -/
def queueAfter (l : List Notice) (n : Notice) : List Notice :=
  if l.length ≤ 14 then l ++ [n]
  else if l.length = 15 ∧ l.getLast?.map (·.kind) ≠ some .overrun then l ++ [⟨.overrun, none, none, 0, 0, false⟩]
  else l

/-- A port's queue holding other notices, ATTN at the level of R169. -/
def queueWith (q : NoticeQueue) (l : List Notice) : NoticeQueue := ⟨l, q.mask, attnLevel l q.mask⟩

/-- The records of a side that a port held are free, and those of a side it did not hold are as they were (R67). -/
def holdsFreed (s t : State) (p : Port) : Prop :=
  ∀ sd, (t.records sd).hold = if (s.records sd).hold.holder = some p then ⟨none, none⟩ else (s.records sd).hold

/-- Ends of a side's timers that a port's client reset overtakes: the lapse of a hold it ends, and the fall of a second it stops (R67, R74; log
36). -/
def resetOvertakes (s : State) (p : Port) (sd : Side) : Overtaken :=
  let o := s.overtaken.get sd
  { o with
    lapse := o.lapse || decide ((s.records sd).hold.holder = some p) && atEnd (s.records sd).hold.lapse
    second := o.second || decide ((s.link p).role = some (drumRole sd)) && secondTaken (s.records sd).cycle ⟨.idle, 0, false, none⟩ }

/-- What a client reset leaves (R166, R25, R67, R74, R115, R178): of port `p`, no prompt, no hold, no notice, no post error and no
buffered write but one under way; the drum's cycle record at IDLE, 0, STOPPED, with PHASE last to every other bound port whose mask
enables it where the phase changed; a ROOM port has left service mode; and what it does not touch. -/
structure ResetDone (s t : State) (p : Port) : Prop where
  prompts : t.ptb.prompts.map Prompt.posted = (s.ptb.prompts.filter fun x => decide (x.owner ≠ p)).map Prompt.posted
  counter : t.ptb.counter = s.ptb.counter
  holds : holdsFreed s t p
  sessions : ∀ sd, (t.records sd).session = (s.records sd).session
  cycles : ∀ sd, (t.records sd).cycle =
    if (s.link p).role = some (drumRole sd) then ⟨.idle, 0, false, none⟩ else (s.records sd).cycle
  queue : t.nq.get p = ⟨[], (s.nq.get p).mask, false⟩
  overtaken : ∀ sd, t.overtaken.get sd = resetOvertakes s p sd
  late : lateAfter s t (s.ptb.prompts.filter fun x => decide (x.owner = p))
  phase : ∀ sd, (s.link p).role = some (drumRole sd) → (s.records sd).cycle.phase ≠ .idle → ∀ p', p' ≠ p → (s.link p').role ≠ none →
    (s.nq.get p').mask.getLsbD 3 = true → ∃ ns, t.nq.get p' = (s.nq.get p').offered ns ∧
      ns.getLast? = some ⟨.phase, some sd, none, phaseCode (s.records sd).cycle.phase, 0, false⟩
  others : ∀ p', p' ≠ p → noticesOf s p' <+: noticesOf t p' ∧ (t.nq.get p').mask = (s.nq.get p').mask
  error : (t.portStore p).error = none
  windows : ∀ p', (t.portStore p').windows = (s.portStore p').windows
  buffer : ∀ w, (t.portStore p).posted = some w → (s.portStore p).posted = some w ∧ w.cond = .underWay
  underWay : ∀ w, (s.portStore p).posted = some w → w.cond = .underWay → (t.portStore p).posted = some w
  otherStores : ∀ p', p' ≠ p → (t.portStore p').plain = (s.portStore p').plain
  service : (s.link p).role = some .room → s.stu.flag = true →
    t.stu.flag = false ∧ t.stu.audition = none ∧ t.dsp.lampTest = false ∧ t.dsp.blank = false ∧
      (∀ k, s.stu.result = .running k → t.stu.result = .done k.kind .aborted 0 0 ∧
        t.stu.checkLate = (s.stu.checkLate || checkEnded k))
  noService : ¬((s.link p).role = some .room ∧ s.stu.flag = true) →
    t.stu.flag = s.stu.flag ∧ t.stu.result = s.stu.result ∧ t.stu.checkLate = s.stu.checkLate
  settings : t.cfg = s.cfg ∧ t.ksc = s.ksc ∧ t.tgn.patterns = s.tgn.patterns ∧ t.dsp.font = s.dsp.font ∧ t.dsp.map = s.dsp.map ∧
    t.psc.memory = s.psc.memory ∧ t.psc.directory = s.psc.directory ∧ t.psc.lastServed = s.psc.lastServed ∧
    t.ignoreLeft = s.ignoreLeft ∧ t.pending = s.pending ∧ t.free = s.free

/-- The new cycle record of SET CYCLE from the fields that are present (R69). -/
def cycleAfter (c : Cycle) (phase : Option Phase) (countdown : Option Nat) (run : Option Bool) : Cycle :=
  let n := countdown.getD c.countdown
  let r := run.getD c.running
  { phase := phase.getD c.phase
    countdown := n
    running := r && decide (n ≠ 0)
    second :=
      if r = false ∨ n = 0 then none else if countdown.isSome ∨ c.running = false then some 0 else c.second }

/-- PHASE offered to the ports whose mask enables it where the phase changed (R71). -/
def phaseOffered (s : State) (sd : Side) (old new : Phase) : State :=
  if new = old then s else s.offerMasked ⟨.phase, some sd, none, phaseCode old, (phaseCode new).setWidth 16, false⟩

/-- A line of a region after the countdown changed: composed again from its texts if it holds a COUNTDOWN element (R146). -/
def lineAfter (countdown : Nat) (texts : List TextItem) (line : List Byte) : List Byte :=
  if TextItem.countdown ∈ texts then composeLine countdown texts else line

/-- The lines of a side's region follow its countdown (R146). -/
def linesFollow (s t : State) (sd : Side) (countdown : Nat) : Prop :=
  (t.region sd).line1 = (if (s.region sd).showsPrompt then lineAfter countdown (s.region sd).texts1 (s.region sd).line1
    else (s.region sd).line1) ∧
  (t.region sd).line2 = (if (s.region sd).showsPrompt then lineAfter countdown (s.region sd).texts2 (s.region sd).line2
    else (s.region sd).line2)

/-- The fields of a page request are in range (R103). -/
def pageInRange (page offset : Word16) (length : Byte) : Prop :=
  page.toNat ≤ 511 ∧ offset.toNat ≤ 511 ∧ 1 ≤ length.toNat ∧ length.toNat ≤ 64 ∧ offset.toNat + length.toNat ≤ 512

/-- The bytes of a port's posted-write buffer changed; nothing else of the state changes. -/
def withPosted (s : State) (p : Port) (w : Option Posted) : State :=
  { s with psc := { s.psc with ports := s.psc.ports.update p fun x => { x with posted := w } } }

/-- Whether a SELF TEST record is EMPTY, RUNNING or DONE (R181). -/
def resultSet (s : State) (r : TestResult) : State := { s with stu := { s.stu with result := r } }

/-- A test has ended: the record is DONE and TEST_DONE is offered to the port bound to ROOM (R181). -/
def testEnded (s : State) (k : TestKind) (v : Verdict) (a b : Nat) : State :=
  (resultSet s (.done k v a b)).offerRoom ⟨.testDone, none, none, testCode k, (verdictCode v).setWidth 16, false⟩

/-- The side's key as a bit of a response set (R173). -/
def keyAnswers (x : Prompt) (k : Key) (hold : Bool) : Prop :=
  (∃ n, responseBit k = some n ∧ x.responseSet.getLsbD n = true) ∧ (x.holdToAnswer = true → hold = true)

/-- No KEY CHECK runs and the panel is ON or DIM, so an event is accepted (R78). -/
def keysAccepted (s : State) : Prop := s.keyCheckRuns = false ∧ (s.dsp.power = .on ∨ s.dsp.power = .dim)

/-- The state after an accepted event has passed its session-start event, on an ACTIVE side (R56, R78). -/
def eventTaken (s : State) (sd : Side) (k : Key) (f : KeyRecord → KeyRecord) : State := idleRestarted (s.onKey sd k f) sd

/-- The six bytes of an empty summary: the mark 0, then an owner, tag, class, side and state that are free, the codes among those listed
(R27, R174; log 8). -/
def emptyMark (a : List Byte) : Prop :=
  ∃ o g c d e : Byte, a = [0, o, g, c, d, e] ∧ o.toNat ≤ 4 ∧ c.toNat ≤ 5 ∧ d.toNat ≤ 1 ∧ e.toNat ≤ 6

/-! ### Keys at rest -/

/-- Keys and knob of a side before scanning begins: the contacts as they are, every key IDLE with nothing held and nothing spent, the knob
without a leaving position and not seeking (R75, R77, R90). -/
def sideAtRest (x : SideKeys) : SideKeys :=
  ⟨x.keys.mapAll fun r => ⟨r.closed, .idle, 0, false, false, false⟩, ⟨x.knob.p, x.knob.q, none, false⟩⟩

/-! ### What a post reads -/

/-- A span element as it is read from its code (R3, R173). -/
def spanReads (e : RawElem) (x : SpanElem) : Prop :=
  (e.kind = 0x01 → x = .phrase e.param.toNat) ∧ (e.kind = 0x02 → x = .number e.param.toNat) ∧ (e.kind = 0x03 → x = .countdown) ∧
    (e.kind = 0x04 → x = .pause e.param.toNat)

/-- A line element as it is read from its code (R4, R173). -/
def lineReads (e : RawElem) (x : LineElem) : Prop :=
  (e.kind = 0x11 → x = .text e.param.toNat) ∧ (e.kind = 0x12 → x = .number e.param.toNat) ∧ (e.kind = 0x13 → x = .countdown) ∧
    (e.kind = 0x14 → x = .blank)

/-! ### Invariants -/

/-- The phrase store keeps its canonical form, and so do the directory, the tone patterns and the font (each lists what is not as an
unlisted key reads). -/
def storeCanonical (s : State) : Prop :=
  Memory.wf s.psc.memory = true ∧ mapWf DirEntry.absent s.psc.directory = true ∧ mapWf [] s.tgn.patterns = true ∧
    mapWf darkGlyph s.dsp.font = true

/-- ATTN is driven while the queue holds a notice whose kind is in the mask, and released otherwise (R169). -/
def attnFollows (s : State) : Prop := ∀ p, (s.nq.get p).attn = attnLevel (s.nq.get p).notices (s.nq.get p).mask

/-- A notice queue holds at most 16 notices, and its sixteenth place only OVERRUN (R167). -/
def queuesBounded (s : State) : Prop :=
  ∀ p, (noticesOf s p).length ≤ 16 ∧ ((noticesOf s p).length = 16 → (noticesOf s p).getLast?.map (·.kind) = some .overrun)

/-- Each role is bound to at most one port (R156). -/
def rolesBoundOnce (s : State) : Prop :=
  ∀ p p' r, (s.link p).role = some r → (s.link p').role = some r → p = p'

/-- A transmit queue holds at most one response of a request in work, and at most three others; a response that waits for the kept place
is one of a request in work, so that its placing fills that place (R160). -/
def placesBounded (s : State) : Prop :=
  (∀ p, ((s.link p).transmit.filter (·.kept)).length ≤ 1 ∧ ((s.link p).transmit.filter fun f => !f.kept).length ≤ 3) ∧
  ∀ p c q f, (s.link p).inWork = some ⟨c, q, .response f⟩ → f.kept = true

/-- A port that holds no role has no notices, no prompts and no hold (R167, R165, R63). -/
def unboundHoldNothing (s : State) : Prop :=
  ∀ p, (s.link p).role = none →
    noticesOf s p = [] ∧ (∀ x ∈ s.ptb.prompts, x.owner ≠ p) ∧ ∀ sd, (s.records sd).hold.holder ≠ some p

/-- A cycle record: the countdown at most 35,999, the second timer running exactly while RUNNING, and never RUNNING at 0 (R68 to
R70). -/
def cyclesConsistent (s : State) : Prop :=
  ∀ sd, (s.records sd).cycle.countdown ≤ 35999 ∧
    ((s.records sd).cycle.running = true ↔ (s.records sd).cycle.second.isSome = true) ∧
    ((s.records sd).cycle.running = true → (s.records sd).cycle.countdown ≠ 0)

/-- The live prompts have distinct slots 0 to 47, and no two of one owner share a tag (R8, R12). -/
def tableConsistent (s : State) : Prop :=
  slotsDistinct s ∧ (∀ x ∈ s.ptb.prompts, x.slot < 48) ∧ (s.ptb.prompts.map fun x => (x.owner, x.tag)).Nodup

/-- The channel is SPEAKING exactly while a turn holds it (R28, R119); the prefetch list has at most four copies and the counts stay
in their ranges (R118, R130). -/
def speechConsistent (s : State) : Prop :=
  (s.spe.channel = .speaking ↔ s.sch.turn.isSome = true) ∧ s.spe.prefetch.length ≤ 4 ∧ s.spe.faults ≤ 2 ∧ s.spe.resets ≤ 255

/-- The panel-off timer runs exactly in DIM and the settling timer exactly in SETTLING (R152). -/
def panelConsistent (s : State) : Prop :=
  (s.dsp.power = .dim ↔ s.dsp.panelOff.isSome = true) ∧ (s.dsp.power = .settling ↔ s.dsp.settling.isSome = true)

/-- An ASLEEP side has the house values and no idle timer, an ACTIVE side has one, and the lapse timer runs exactly while the side is
held (R52, R53, R63). -/
def sidesConsistent (s : State) : Prop :=
  ∀ sd, ((s.records sd).session.active = false →
      (s.records sd).session.language = s.cfg.language ∧ (s.records sd).session.mode = s.cfg.mode ∧
        (s.records sd).session.volume = s.cfg.volume) ∧
    ((s.records sd).session.active = true ↔ (s.records sd).session.idle.isSome = true) ∧
    ((s.records sd).hold.holder.isSome = true ↔ (s.records sd).hold.lapse.isSome = true)

/-- A region's owner is a live prompt on its side with a page record, in a granted state (R34). -/
def regionsOwned (s : State) : Prop :=
  slotsDistinct s ∧ ∀ sd n, (s.schedule sd).owner = some n →
    ∃ x ∈ s.ptb.prompts, x.slot = n ∧ x.side = sd ∧ x.page.isSome = true ∧ ∃ a, x.state = .granted a

/-- Every write to a page that is accepted or under way lies within one page and keeps that page from being pinned (R105, R107, R111,
R112), and a write's transfer belongs to the write that claimed it. -/
structure WritesGuarded (s : State) : Prop where
  canonical : Memory.wf s.psc.memory = true
  direct : ∀ p c q pg o d, (s.link p).inWork = some ⟨c, q, .write pg o d⟩ → s.spe.pin ≠ some pg ∧ o + d.length ≤ 512
  held : ∀ p c q pg o d, (s.link p).inWork = some ⟨c, q, .heldWrite pg o d⟩ → o + d.length ≤ 512
  posted : ∀ p w, (s.portStore p).posted = some w →
    w.offset + w.data.length ≤ 512 ∧ (w.cond = .underWay → ∃ pg, w.pendingOn = some pg ∧ s.spe.pin ≠ some pg)
  directTransfer : ∀ p pg o d, s.psc.transfer = some (.write p pg o d) → ∃ c q, (s.link p).inWork = some ⟨c, q, .write pg o d⟩
  postedTransfer : ∀ p pg o d, s.psc.transfer = some (.posted p pg o d) →
    ∃ w, (s.portStore p).posted = some w ∧ w.cond = .underWay ∧ w.pendingOn = some pg ∧ w.offset = o ∧ w.data = d

end Sys2Proof.Claims
namespace Sys2Proof.Claims

open Sys2Proof.Machine

/-- The state with no transfer under way. -/
def busFree (s : State) : State := { s with psc := { s.psc with transfer := none } }

/-- The state with other page contents. -/
def storeHolding (s : State) (m : Memory) : State := { s with psc := { s.psc with memory := m } }

/-- The state with a client port's transfer under way; the port is the last one served (R110). -/
def servedWith (s : State) (p : Port) (t : Transfer) : State :=
  { s with psc := { s.psc with transfer := some t, lastServed := some p } }

/-- The state after the request in work of a port was answered; the receiver goes on as it was. -/
def repliedWork (s : State) (p : Port) (code seq : Byte) (st : Status) (body : List Byte) : State :=
  { s with lnk := s.lnk.update p fun l =>
    { l with inWork := none, transmit := l.transmit ++ [⟨code ||| 0x80, seq, st, body, true⟩] } }

/-- The state with another prefetch list. -/
def prefetching (s : State) (l : List PageCopy) : State := { s with spe := { s.spe with prefetch := l } }

/-- The state with no prefetch copy of a page (R113). -/
def copyDropped (s : State) (page : Nat) : State := prefetching s (s.spe.prefetch.filter fun c => decide (c.page ≠ page))

/-- The state after the request in work of a port got an OK response that waits for the kept place (R160). -/
def responseWaits (s : State) (p : Port) (code seq : Byte) (body : List Byte) : State :=
  { s with lnk := s.lnk.update p fun l =>
    { l with inWork := some ⟨code, seq, .response ⟨code ||| 0x80, seq, .ok, body, true⟩⟩ } }

/-- A store holds the bytes of a write from an offset of a page on, and every other byte as before. -/
def bytesWritten (m m' : Memory) (page offset : Nat) (data : List Byte) : Prop :=
  (∀ i, i < data.length → readByte m' page (offset + i) = data.getD i 0) ∧
  ∀ pg o, o < 512 → ¬(pg = page ∧ offset ≤ o ∧ o < offset + data.length) → readByte m' pg o = readByte m pg o

end Sys2Proof.Claims

namespace Sys2Proof.Claims

open Sys2Proof.Machine

/-- The items of a configuration record are in range (R175). -/
def configInRange (b : ConfigBody) : Prop :=
  (b.language.toNat ≤ 3 ∧ b.mode.toNat ≤ 2 ∧ b.volume.toNat ≤ 3) ∧
  (b.level0.toNat ≤ 31 ∧ b.level1.toNat ≤ 31 ∧ b.level2.toNat ≤ 31 ∧ b.level3.toNat ≤ 31) ∧
  (20 ≤ b.idle.toNat ∧ b.idle.toNat ≤ 900) ∧ (10 ≤ b.lapse.toNat ∧ b.lapse.toNat ≤ 600) ∧
  (10 ≤ b.panelOff.toNat ∧ b.panelOff.toNat ≤ 600) ∧
  (∀ n ∈ [b.quotaLower, b.quotaUpper, b.quotaPayment, b.quotaRoom], 2 ≤ n.toNat ∧ n.toNat ≤ 32) ∧
  b.quotaLower.toNat + b.quotaUpper.toNat + b.quotaPayment.toNat + b.quotaRoom.toNat ≤ 48 ∧
  b.lockOnFault.toNat ≤ 1 ∧ b.fairTurn.toNat ≤ 1

/-- A configuration record holds the items of a body. -/
def configHolds (c : Configuration) (b : ConfigBody) : Prop :=
  c.language.val = b.language.toNat ∧ modeCode c.mode = b.mode ∧ c.volume.val = b.volume.toNat ∧
  c.levels = ⟨b.level0.toNat, b.level1.toNat, b.level2.toNat, b.level3.toNat⟩ ∧ c.idleTimeout = b.idle.toNat ∧
  c.holdLapse = b.lapse.toNat ∧ c.panelOff = b.panelOff.toNat ∧ c.quotaLower = b.quotaLower.toNat ∧
  c.quotaUpper = b.quotaUpper.toNat ∧ c.quotaPayment = b.quotaPayment.toNat ∧ c.quotaRoom = b.quotaRoom.toNat ∧
  boolCode c.lockOnFault = b.lockOnFault ∧ boolCode c.fairTurn = b.fairTurn

/-- The state with another configuration record; an ASLEEP side takes the house values at once (R53, R176). -/
def configured (s : State) (c : Configuration) : State :=
  { s with
    cfg := c
    scu := s.scu.mapAll fun r =>
      if r.session.active then r
      else { r with session := { r.session with language := c.language, mode := c.mode, volume := c.volume } } }

/-- The state after service mode was left, but for notices and presentation (R178). -/
def serviceLeft (s : State) : State :=
  { s with
    stu :=
      { flag := false, audition := none
        result := match s.stu.result with
          | .running k => .done k.kind .aborted 0 0
          | .empty => .empty
          | .done k v a b => .done k v a b
        checkLate := match s.stu.result with
          | .running k => s.stu.checkLate || checkEnded k
          | _ => s.stu.checkLate }
    dsp := { s.dsp with lampTest := false, blank := false }
    psc := { s.psc with transfer := match s.stu.result, s.psc.transfer with
      | .running _, some (.test page slot _) => some (.test page slot true)
      | _, x => x } }

/-- The state after a session-start event of an accepted event or wake: an ACTIVE side's idle timer restarts, an ASLEEP side's session
begins (R54, R56, R78). -/
def eventPassed (s : State) (sd : Side) : State :=
  if (s.records sd).session.active = true then idleRestarted s sd else sessionBegun s sd

/-- The focused prompt of a side: the region owner, in PRESENTING or AWAITING, with a response set (R81). -/
def focused (s : State) (sd : Side) (x : Prompt) : Prop :=
  (∃ n, (s.schedule sd).owner = some n ∧ s.prompt n = some x) ∧
  (x.state = .granted .presenting ∨ x.state = .granted .awaiting) ∧ x.responseSet ≠ 0

/-- The port that a side's keys and knob fall to: its holder, else the port bound to its drum role (R81, R85). -/
def keyPort (s : State) (sd : Side) : Option Port :=
  match (s.records sd).hold.holder with
  | some h => some h
  | none => s.portOf (drumRole sd)

/-- The state after a KEY notice was offered to the port that a side's keys fall to, if there is one (R84, R85). -/
def keyOffered (s : State) (sd : Side) (k : EventKey) (kd : EventKind) : State :=
  match keyPort s sd with
  | some p => s.offer p ⟨.key, some sd, none, eventKeyCode k, (eventKindCode kd).setWidth 16, false⟩
  | none => s

/-- The state after a key event during KEY CHECK: the KEY notice with the test flag goes to the port bound to ROOM, and the event is
counted up to 65,535 (R89, R185). -/
def checkedKey (s : State) (sd : Side) (k : EventKey) (kd : EventKind) : State :=
  let u := s.offerRoom ⟨.key, some sd, none, eventKeyCode k, (eventKindCode kd).setWidth 16, true⟩
  match s.stu.result with
  | .running (.keyCheck d t n) => resultSet u (.running (.keyCheck d t (min 65535 (n + 1))))
  | _ => u

/-- A command that makes a key event: PRESS of an unspent key in BREAKING, whose contact rests, or HOLD of an unspent key in DOWN, which is
spent (R76); with the state after the contact. A press whose break was overtaken in the same moment makes none (log 36). -/
def makesKeyEvent (s : State) (c : Instr) (sd : Side) (k : Key) (hold : Bool) (u : State) : Prop :=
  (s.keyRecord sd k).spent = false ∧
  ((c = .press sd k ∧ hold = false ∧ (s.keyRecord sd k).breakLate = false ∧ (∃ n, (s.keyRecord sd k).state = .breaking n) ∧
      u = s.onKey sd k fun r => { r with state := .idle }) ∨
    (c = .hold sd k ∧ hold = true ∧ (s.keyRecord sd k).state = .down ∧ u = s.onKey sd k fun r => { r with spent := true }))

/-- A command that makes a knob detent: the change brings the contacts to REST from C where the knob left through A (CW), or from A where
it left through C (CCW) (R77); with the state after the contacts. -/
def makesDetent (s : State) (c : Instr) (sd : Side) (kd : EventKind) (u : State) : Prop :=
  c = .knobPhaseChange sd false false ∧ s.ksc.scanning = true ∧ (s.ksc.sides.get sd).knob.seeking = false ∧
  (((s.ksc.sides.get sd).knob.p = false ∧ (s.ksc.sides.get sd).knob.q = true ∧ (s.ksc.sides.get sd).knob.leaving = some .a ∧ kd = .cw) ∨
    ((s.ksc.sides.get sd).knob.p = true ∧ (s.ksc.sides.get sd).knob.q = false ∧ (s.ksc.sides.get sd).knob.leaving = some .c ∧
      kd = .ccw)) ∧
  u = s.onKnob sd fun x => { x with p := false, q := false }

/-- The tone in play replaced by another or by none; the end of its note, where that has no time left, is noted as overtaken (R140; log
36). -/
def toneReplaced (g : ToneGenerator) (t : Option Tone) : ToneGenerator :=
  ⟨g.patterns, t, g.noteLate || g.current.any fun x => decide (x.left = 0)⟩

/-- A tone request for the click or the reject tone of a side (R80, R140): dropped under the prompt tone of a SAFETY or FAULT prompt, else it
replaces the tone in play with a copy of the pattern as it stands, at the side's level. -/
def keyToned (s : State) (pattern : Nat) (sd : Side) (o : Origin) : State :=
  if ∃ t ∈ s.tgn.current, t.origin = .prompt .safety ∨ t.origin = .prompt .fault then s
  else { s with tgn := toneReplaced s.tgn (match s.pattern pattern with
    | [] => none
    | n :: rest => some ⟨n :: rest, o, sd, s.sideLevel sd, n.steps⟩) }

end Sys2Proof.Claims

namespace Sys2Proof.Claims

open Sys2Proof.Machine

/-! ### Who is shown (R29 to R38, R142 to R147) -/

/-- A live prompt is eligible (R32). -/
def mayPresent (s : State) (x : Prompt) : Prop :=
  ∀ h, (s.records x.side).hold.holder = some h → h = x.owner ∨ x.cls = .safety ∨ x.cls = .fault

/-- Fair turn is enabled and decides for `x` against `y`: the last owner of the resource owns `y` and not `x` (R30). -/
def turnDecides (fair : Bool) (last : Option Port) (x y : Prompt) : Prop :=
  fair = true ∧ last = some y.owner ∧ last ≠ some x.owner

/-- One prompt ranks above another for a resource with a last owner (R29): by class, urgency, fair turn, or its earlier place in the
posting order `l`. -/
def ranksAbove (fair : Bool) (last : Option Port) (l : List Prompt) (x y : Prompt) : Prop :=
  (classCode x.cls).toNat < (classCode y.cls).toNat ∨ x.cls = y.cls ∧ (y.urgency < x.urgency ∨ x.urgency = y.urgency ∧
    (turnDecides fair last x y ∨ ¬ turnDecides fair last y x ∧ [x, y].Sublist l))

/-- A candidate for a side's region (R34). -/
def regionCandidate (s : State) (sd : Side) (x : Prompt) : Prop :=
  x ∈ s.ptb.prompts ∧ x.side = sd ∧ x.page.isSome = true ∧ mayPresent s x

/-- The top-ranked candidate for a side's region, read with a last-owner record (R29, R34). -/
def regionTopped (s : State) (sd : Side) (last : Option Port) (x : Prompt) : Prop :=
  regionCandidate s sd x ∧ ∀ y, regionCandidate s sd y → y ≠ x → ranksAbove s.cfg.fairTurn last s.ptb.prompts x y

/-- A region whose render has formed some items and goes on with some elements: committed, or waiting for the text slot of a page that the
next TEXT element resolves to (R144, R145). -/
def rendered (s : State) (sd : Side) (language : Fin 4) (formed : List (Nat × TextItem)) (todo : List (Nat × LineElem)) (r : Region) :
    Region :=
  match s.formElems language formed todo with
  | (f, _, none) =>
    { r with
      texts1 := lineItems 1 f, texts2 := lineItems 2 f
      line1 := composeLine (s.records sd).cycle.countdown (lineItems 1 f)
      line2 := composeLine (s.records sd).cycle.countdown (lineItems 2 f)
      builtin := false, render := none }
  | (f, rest, some page) => { r with render := some ⟨language, f, rest, page⟩ }

/-- A region that has been given an owner: content and masks follow at once and a render starts in the side's language (R142, R143). -/
def regionShowing (s : State) (sd : Side) (slot : Nat) (g : PageRecord) : Region :=
  rendered s sd (s.records sd).session.language [] (pageElems g)
    { s.region sd with content := .prompt slot g, icons := g.icons, blink := g.blink }

/-- A region left without an owner: a prompt's page is taken down, for the fallback page where that is due (R36, R38, R147). -/
def regionLeft (s : State) (sd : Side) : Region :=
  if (s.region sd).showsPrompt = true then
    if (s.schedule sd).fallbackDue = true then
      ⟨.fallback, [], [], fallbackLine, List.replicate 24 0x20, true, 0, 0, none⟩
    else ⟨.empty, [], [], List.replicate 24 0x20, List.replicate 24 0x20, false, 0, 0, none⟩
  else s.region sd

/-- A side's region chosen again, from `s` to `t`, with the last-owner record `last` (R31, R34 to R36). -/
structure RegionChosen (s t : State) (sd : Side) (last : Option Port) : Prop where
  /-- The record is set first where the owner lost its eligibility, and after the choice where it is outranked (R31). -/
  record : ∀ x ∈ s.ptb.prompts, (s.schedule sd).owner = some x.slot →
    (mayPresent s x → last = (s.schedule sd).lastOwner) ∧ (¬ mayPresent s x → last = some x.owner) ∧
    (t.schedule sd).lastOwner =
      if (t.schedule sd).owner = (s.schedule sd).owner then (s.schedule sd).lastOwner else some x.owner
  unheld : (s.schedule sd).owner = none → last = (s.schedule sd).lastOwner ∧ (t.schedule sd).lastOwner = (s.schedule sd).lastOwner
  chosen : ∀ x, regionTopped s sd last x → (t.schedule sd).owner = some x.slot
  nobody : (∀ x, ¬ regionCandidate s sd x) → (t.schedule sd).owner = none
  granted : ∀ x ∈ t.ptb.prompts, (t.schedule sd).owner = some x.slot → ∃ a, x.state = .granted a
  displaced : ∀ x ∈ t.ptb.prompts, (s.schedule sd).owner = some x.slot → (t.schedule sd).owner ≠ (s.schedule sd).owner →
    ∃ a, x.state = .held a
  shown : ∀ x ∈ s.ptb.prompts, ∀ g, x.page = some g → (t.schedule sd).owner = some x.slot →
    t.region sd = if (s.schedule sd).owner = some x.slot then s.region sd else regionShowing s sd x.slot g
  left : (t.schedule sd).owner = none → t.region sd = regionLeft s sd
  other : t.region (otherSide sd) = s.region (otherSide sd) ∧
    (t.schedule (otherSide sd)).owner = (s.schedule (otherSide sd)).owner ∧
    (t.schedule (otherSide sd)).lastOwner = (s.schedule (otherSide sd)).lastOwner

/-- A side's holder changed, from `s`, which has the new holder, to `t`: the region is chosen again, and the side's prompts without a page
record are granted exactly where they are eligible (R32, R33, R35). -/
def sideReviewed (s t : State) (sd : Side) : Prop :=
  (∃ last, RegionChosen s t sd last) ∧
  ∀ x ∈ t.ptb.prompts, x.side = sd → x.page = none → (mayPresent s x ↔ ∃ a, x.state = .granted a)

end Sys2Proof.Claims

namespace Sys2Proof.Claims

open Sys2Proof.Machine

/-! ### Who speaks (R39 to R49, R120) -/

/-- A prompt is its side's pending replay (R48). -/
def replayNames (s : State) (x : Prompt) : Prop := ∃ r, (s.schedule x.side).replay = some r ∧ r.slot = x.slot

/-- A prompt owes speech of a turn kind (R39): a first delivery in PRESENTING, a repeat that is due or has started in AWAITING, or a replay,
which goes before a repeat (log 20). -/
def owesTurn (s : State) (x : Prompt) : TurnKind → Prop
  | .first => x.state = .granted .presenting ∧ x.elemIndex < x.span.length
  | .again => x.state = .granted .awaiting ∧ (x.repeatDue = true ∨ x.repeatStarted = true) ∧ ¬ replayNames s x
  | .replay => replayNames s x ∧ (x.state = .granted .awaiting ∨ x.state = .granted .dwelling ∨ x.state = .granted .standing ∨
      x.state = .granted .acknowledged)

/-- A prompt is a candidate for the channel with a turn kind (R39). -/
def channelCandidate (s : State) (x : Prompt) (k : TurnKind) : Prop :=
  x ∈ s.ptb.prompts ∧ (∀ k', s.sch.turn ≠ some (.prompt x.slot k')) ∧ mayPresent s x ∧
    (x.page = none ∨ (s.schedule x.side).owner = some x.slot) ∧ (s.records x.side).session.mode ≠ .off ∧ owesTurn s x k

/-- A waiting audition ranks above a prompt: as SAFETY, urgency 3, of the ROOM port, behind every prompt that it equals (R49). -/
def auditionAbove (s : State) (x : Prompt) : Prop :=
  x.cls ≠ .safety ∨ x.urgency < 3 ∨
    x.urgency = 3 ∧ s.cfg.fairTurn = true ∧ s.sch.lastChannel = some x.owner ∧ s.portOf .room ≠ s.sch.lastChannel

/-- An audition waits for the channel (R49). -/
def auditionWaiting (s : State) : Prop := s.stu.audition ≠ none ∧ s.sch.turn ≠ some .audition

/-- A turn of a kind begins a delivery of the prompt's span, rather than going on with one (R120). -/
def turnBegins (s : State) (x : Prompt) : TurnKind → Prop
  | .first => x.hasSpoken = false
  | .again => x.repeatStarted = false
  | .replay => ∃ r, (s.schedule x.side).replay = some r ∧ r.started = false

/-- A prompt's record when a turn that begins a delivery is granted: a repeat is started, a replay starts at element 0 and stops the repeat
timer in AWAITING, and the countdown is latched in minutes rounded up where the span has a COUNTDOWN (R17, R42, R48, R120). -/
def turnBegun (s : State) (x : Prompt) (k : TurnKind) : Prompt :=
  let y : Prompt := { x with
    hasSpoken := true
    latch := if SpanElem.countdown ∈ x.span then some (((s.records x.side).cycle.countdown + 59) / 60) else x.latch }
  match k with
  | .first => y
  | .again => { y with elemIndex := 0, repeatsLeft := x.repeatsLeft - 1, repeatDue := false, repeatStarted := true }
  | .replay =>
    if x.state = .granted .awaiting then { y with elemIndex := 0, repeatTimer := none, repeatDue := false, repeatStarted := false }
    else { y with elemIndex := 0 }

/-- A state with the channel SPEAKING for a turn, its first element not yet started, and nothing noted of its end (R42, R43). -/
def speakingFor (s : State) (turn : Turn) : State :=
  { s with
    sch := { s.sch with turn := some turn, preempt := false, safetyCut := false, ending := none }
    spe := { s.spe with channel := .speaking, element := none } }

/-- The channel granted to a prompt's turn whose record becomes `y`; a replay is marked as granted, and a repeat whose timer it stops at its
end does not come (R42, R48; log 36). -/
def turnGranted (s : State) (x y : Prompt) (k : TurnKind) : State :=
  let u := speakingFor (s.onPrompt x.slot fun _ => y) (.prompt x.slot k)
  match k with
  | .first | .again => u
  | .replay => { u.onSchedule x.side fun z => { z with replay := z.replay.map fun r => { r with started := true } } with
      late := if x.repeatTimer = some 0 ∧ y.repeatTimer = none then { s.late with repeats := s.late.repeats ++ [x.slot] } else s.late }

/-! ### How an element goes on (R43 to R46, R121 to R131) -/

/-- The state with an audition requested (R49, R180). -/
def auditionAsked (s : State) (a : Audition) : State := { s with stu := { s.stu with audition := some a } }

/-- A live prompt holds the channel with a turn kind, and nothing that R40 and R41 count as delivered is owed. -/
def speakingPrompt (s : State) (x : Prompt) (k : TurnKind) : Prop :=
  s.spe.channel = .speaking ∧ s.sch.turn = some (.prompt x.slot k) ∧ s.prompt x.slot = some x ∧ s.owesInVain = false

/-- A SAFETY candidate, an audition among them, stands (R45). -/
def safetyWaits (s : State) : Prop := auditionWaiting s ∨ ∃ c k, channelCandidate s c k ∧ c.cls = .safety

/-- A candidate of a higher class than the speaker's stands (R44). -/
def higherWaits (s : State) (x : Prompt) : Prop := ∃ c k, channelCandidate s c k ∧ (classCode c.cls).toNat < (classCode x.cls).toNat

/-- Nothing of a preemption is still to be noted for the speaker (R44, R45). -/
def preemptionNoted (s : State) (x : Prompt) : Prop :=
  (x.cls = .safety ∨ s.sch.safetyCut = true ∨ ¬ safetyWaits s) ∧
  (x.cls = .safety ∨ s.sch.safetyCut = true ∨ s.sch.preempt = true ∨ ¬ higherWaits s x)

/-- The words of a number (R123). -/
def spokenNumber (v : Nat) : List Nat :=
  (if 100 ≤ v then [224 + v / 100, 252] else []) ++
    (if v % 100 < 20 then (if v % 100 = 0 ∧ 100 ≤ v then [] else [224 + v % 100])
     else if v % 10 = 0 then [244 + (v % 100 / 10 - 2)] else [244 + (v % 100 / 10 - 2), 224 + v % 10])

/-- The words of a span element with latched minutes (R122 to R125). -/
def spokenWords (minutes : Nat) : SpanElem → List Nat
  | .phrase n => [n]
  | .number v => spokenNumber v
  | .countdown => spokenNumber minutes ++ [if minutes = 1 then 253 else 254]
  | .pause _ => []

/-- The element in play at its start (R121 to R125): its words resolved in the side's language, a pause twice as long under ASSIST, the
side's level; of the page copies only those that match one of these resolutions stay (R114). -/
def elementBegun (s : State) (x : Prompt) (e : SpanElem) : State :=
  let w := (spokenWords (x.latch.getD 0) e).map fun n => (⟨n, s.resolve n (s.records x.side).session.language⟩ : SpokenWord)
  { s with spe := { s.spe with
      element := some
        { words := w, rest := w, level := s.sideLevel x.side, sample := 0, stepIndex := 0, samples := []
          at_ := match e with
            | .pause ms => .pause (if (s.records x.side).session.mode = .assist then 2 * ms else ms)
            | _ => .word }
      prefetch := s.spe.prefetch.filter fun c => w.any fun y => y.res.any fun r =>
        decide (r.first = c.res.first ∧ r.blocks = c.res.blocks ∧ c.page ∈ phrasePages r) } }

/-- A state whose element in play is another. -/
def elementAt (s : State) (e : ElementInPlay) : State := { s with spe := { s.spe with element := some e } }

/-- An element that goes on with its next word (R123). -/
def wordLeft (e : ElementInPlay) : ElementInPlay := { e with rest := e.rest.tail, at_ := .word }

/-- The pin removed: the copy of its page is the one finished last, and a buffered write in pin wait for it claims again (R107, R111,
R126). -/
def unpinned (s : State) : State :=
  match s.spe.pin with
  | none => s
  | some page =>
    { s with
      spe := { s.spe with
        pin := none
        prefetch := (s.spe.prefetch.filter fun c => decide (c.page ≠ page)) ++
          ((s.spe.prefetch.filter fun c => decide (c.page = page)).map fun c => { c with finished := true }) }
      psc := { s.psc with ports := s.psc.ports.mapAll fun y =>
        match y.posted with
        | some w => if w.cond = .pinWait ∧ w.pendingOn = some page then { y with posted := some { w with cond := .claiming } } else y
        | none => y } }

/-- A turn over: the pin removed, no turn, nothing noted of its end, no element in play, the channel in another state (R43, R135). -/
def turnOver (s : State) (c : Channel) : State :=
  { unpinned s with
    sch := { s.sch with turn := none, preempt := false, safetyCut := false, ending := none }
    spe := { (unpinned s).spe with channel := c, element := none } }

/-- The channel's last-owner record (R31). -/
def channelLastOwned (s : State) (o : Option Port) : State := { s with sch := { s.sch with lastChannel := o } }

/-- A faulted block: step index above 63, or a check byte other than the low 8 bits of the sum of the 60 code bytes (R129). -/
def faulted (block : List Byte) : Prop :=
  63 < (block.getD 2 0).toNat ∨ (block.getD 3 0).toNat ≠ ((block.drop 4).map (·.toNat)).sum % 256

/-- A block decoded from its own predictor and step index (R128): the samples and the decoder's state after them. -/
def blockDecoded (block : List Byte) : List Int × Int × Nat :=
  decodeCodes (wordOf (block.getD 0 0) (block.getD 1 0)).toInt (block.getD 2 0).toNat (blockCodes (block.drop 4))

/-- Both fault counts cleared by a phrase played to its end in a prompt's turn out of service mode (R130, R134). -/
def phraseClean (s : State) : State :=
  if s.stu.flag = true ∨ s.sch.turn = some .audition then s else { s with spe := { s.spe with faults := 0, resets := 0 } }

/-- The state before the block in play is followed: the page is left at the phrase's last block and at the page's last slot, and a phrase
played to its end is clean (R111, R127, R130; a phrase that ends under a SAFETY cut too, log 23). -/
def blockOver (s : State) (r : Resolution) (k : Nat) : State :=
  let u := if r.blocks ≤ k + 1 ∨ (k + 1) % 8 = 7 then unpinned s else s
  if r.blocks ≤ k + 1 then phraseClean u else u

/-- A turn of a prompt cut at the end of a block or piece by a SAFETY candidate, where there is such a turn (R45). -/
def turnCut (s : State) : State :=
  match s.speaker with
  | some (x, k) => s.preemptTurn x k
  | none => s

/-- The state a prompt's record takes when its span is delivered for the first time (R16). -/
def stateDelivered (x : Prompt) : Active :=
  match x.cls with
  | .action | .confirm => .awaiting
  | .safety | .fault => if x.responseSet = 0 then .acknowledged else .awaiting
  | .info => .dwelling
  | .status => .standing

/-- A repeat timer as it starts (R16, R17). -/
def repeatStarts (x : Prompt) : Option Nat := if 0 < x.repeatsLeft ∧ x.span ≠ [] then some (100 * x.repeatInterval) else none

/-- A prompt whose span has been delivered for the first time, in the state `a` that follows it (R16). -/
def deliveredFirst (x : Prompt) (a : Active) : Prompt :=
  { x with
    elemIndex := x.span.length, spokenOnce := true
    repeatTimer := if a = .awaiting then repeatStarts x else x.repeatTimer
    dwellLeft := if a = .dwelling then 100 * x.dwell else x.dwellLeft }

/-- A prompt whose repeat has been delivered (R17). -/
def deliveredAgain (x : Prompt) : Prompt :=
  { x with
    elemIndex := x.span.length, spokenOnce := true, repeatDue := false, repeatStarted := false, repeatTimer := repeatStarts x }

/-- A prompt whose repeat timer, stopped by its HELP replay, starts again where the prompt is in AWAITING, displaced or not (R17, R48; log
21). -/
def repeatResumed (x : Prompt) : Prompt :=
  if x.state = .granted .awaiting ∨ x.state = .held .awaiting then { x with repeatTimer := repeatStarts x } else x

/-- A prompt whose span has been played: the index at the span's length, spoken once (R16, R187). -/
def spanPlayed (x : Prompt) : Prompt := { x with elemIndex := x.span.length, spokenOnce := true }

/-- A prompt whose first delivery has ended (R16); one displaced meanwhile goes to the state after it as HELD (log 17). -/
def firstEnded (x : Prompt) : Prompt :=
  match x.state with
  | .granted .presenting => { deliveredFirst x (stateDelivered x) with state := .granted (stateDelivered x) }
  | .held .presenting => { deliveredFirst x (stateDelivered x) with state := .held (stateDelivered x) }
  | _ => spanPlayed x

/-- The table after the span of a turn has been delivered (R16, R17, R48): a replay that was granted is owed once more where HELP set its
further mark and is pending no longer where not; one that HELP recorded meanwhile stays pending (log 50). -/
def spanOver (s : State) (x : Prompt) (k : TurnKind) : State :=
  match k with
  | .first => s.onPrompt x.slot firstEnded
  | .again => s.onPrompt x.slot deliveredAgain
  | .replay => (s.onPrompt x.slot fun y => repeatResumed (spanPlayed y)).onSchedule x.side fun z => { z with replay :=
      match z.replay with
      | none => none
      | some r =>
        if r.slot = x.slot ∧ r.started = true then (if r.further = true then some ⟨x.slot, false, false⟩ else none) else some r }

/-- A turn ended other than by preemption: the channel IDLE and last owned by the prompt's port (R31, R43). -/
def turnEnded (s : State) (x : Prompt) : State := channelLastOwned (turnOver s .idle) (some x.owner)

/-- The repeat timer started again after a lost or cut turn, where that was a replay's (R17, R48; log 21). -/
def replayLeft (s : State) (x : Prompt) (k : TurnKind) : State := if k = .replay then s.onPrompt x.slot repeatResumed else s

/-- What a preemption leaves of a replay (R48): one still pending as granted waits to go on, another is over (logs 21 and 50). -/
def replayCutOff (s : State) (x : Prompt) (k : TurnKind) : State :=
  if ∃ r ∈ (s.schedule x.side).replay, r.slot = x.slot ∧ r.started = true then s else replayLeft s x k

/-- The rest of a side's speaking span taken as delivered at once (R46, R61). -/
def sideSpoken (s : State) (sd : Side) : State :=
  match s.speaker with
  | some (x, k) => if x.side = sd then turnEnded (spanOver s x k) x else s
  | none => s

/-- The pending replay of a side cleared; the repeat timer that it stopped starts again unless it still plays (R41, R48; log 21). -/
def replayCleared (s : State) (sd : Side) : State :=
  match (s.schedule sd).replay with
  | none => s
  | some r =>
    (if r.started = true ∧ s.speaks r.slot = false then s.onPrompt r.slot repeatResumed else s).onSchedule sd fun z =>
      { z with replay := none }

/-- What is noted for the end of the element in play where R40 or R41 arises for the side's speaker (R46; log 22): its span counts as
delivered then. R41 asks for mode OFF; R40, of a first delivery that is owed, for mode OFF, a SILENCED channel, or a side ASLEEP under a
prompt that is neither SAFETY nor FAULT. An ending noted before stays. -/
def endingNoted (s : State) (sd : Side) : State :=
  match s.speaker with
  | none => s
  | some (x, k) =>
    if x.side = sd ∧ s.sch.ending = none ∧ ((s.records sd).session.mode = .off ∨
        k = .first ∧ x.state = .granted .presenting ∧ x.elemIndex < x.span.length ∧ (s.spe.channel = .silenced ∨
          (s.records sd).session.active = false ∧ x.cls ≠ .safety ∧ x.cls ≠ .fault)) then
      { s with sch := { s.sch with ending := some .delivered } }
    else s

/-- A speech mode set by SET SPEECH MODE or the SPEECH key, and the channel settled (R61): OFF silences the side at once. -/
def modeSet (s : State) (sd : Side) (m : SpeechMode) : State :=
  let u := s.onSession sd fun x => { x with mode := m }
  (if m = .off then replayCleared (sideSpoken u sd) sd else u).settle

/-! ### An audition's turn (R49, R141, R180) -/

/-- An audition holds the channel, and nothing that R40 and R41 count as delivered is owed. -/
def auditionSpeaks (s : State) (a : Audition) : Prop :=
  s.spe.channel = .speaking ∧ s.sch.turn = some .audition ∧ s.stu.audition = some a ∧ s.owesInVain = false

/-- The element in play of an audition at its start: its one phrase, resolved exactly as named, at the level of volume ID 3 (R136, R141);
of the page copies only those that match the resolution stay (R114). -/
def auditionBegun (s : State) (a : Audition) : State :=
  let w : List SpokenWord := [⟨a.phrase, resolutionOf a.phrase a.language (s.entry a.phrase a.language)⟩]
  { s with spe := { s.spe with
      element := some { words := w, rest := w, level := s.cfg.levels.l3, sample := 0, stepIndex := 0, samples := [], at_ := .word }
      prefetch := s.spe.prefetch.filter fun c => w.any fun y => y.res.any fun r =>
        decide (r.first = c.res.first ∧ r.blocks = c.res.blocks ∧ c.page ∈ phrasePages r) } }

/-- PHRASE_FAULT of an audition to the port bound to ROOM, with no side and no tag: MISSING 1 or DECODE 2 (R141). -/
def auditionFaulted (s : State) (detail : Byte) (phrase : Nat) : State :=
  s.offerRoom ⟨.phraseFault, none, none, detail, BitVec.ofNat 16 phrase, false⟩

/-- An audition's turn ended with a verdict: the channel IDLE and last owned by the ROOM port, TEST_DONE of an audition to that port
(R43, R49, R180). -/
def auditionOver (s : State) (v : Verdict) : State :=
  let u := channelLastOwned (turnOver s .idle) (s.portOf .room)
  ({ u with stu := { u.stu with audition := none } }).offerRoom ⟨.testDone, none, none, 5, (verdictCode v).setWidth 16, false⟩

/-- A running self-test aborted: its read under way is marked to be discarded, and TEST_DONE is offered (R178 step 1); an end of a KEY CHECK
that falls together with that is noted as overtaken (R185; log 36). -/
def testAborted (s : State) : State :=
  match s.stu.result with
  | .running k => testEnded { s with
      stu := { s.stu with checkLate := s.stu.checkLate || checkEnded k }
      psc := { s.psc with transfer := match s.psc.transfer with
        | some (.test page slot _) => some (.test page slot true)
        | x => x } } k.kind .aborted 0 0
  | .empty | .done _ _ _ _ => s

/-- An audition aborted, be it a candidate or speaking (R178 step 2). -/
def auditionAborted (s : State) : State :=
  if s.stu.audition = none then s
  else if s.sch.turn = some .audition then auditionOver s .aborted
  else ({ s with stu := { s.stu with audition := none } }).offerRoom ⟨.testDone, none, none, 5, 3, false⟩

/-- Service mode left, steps 1 to 4 of R178, before the channel is granted again (log 54). -/
def serviceGone (s : State) : State :=
  let u := auditionAborted (testAborted s)
  { u with dsp := { u.dsp with lampTest := false, blank := false }, stu := { u.stu with flag := false } }

/-! ### Prompts granted, displaced and closed (R15, R19, R24, R35) -/

/-- A prompt's record after a grant (R15, R19): QUEUED goes to PRESENTING and HELD to its resume state; with an empty span its span is
delivered on entry to PRESENTING (R16). A grant that reaches a granted prompt is not taken. -/
def promptGranted (y : Prompt) : Prompt :=
  match y.state with
  | .queued | .held .presenting =>
    if y.span = [] then { deliveredFirst y (stateDelivered y) with state := .granted (stateDelivered y) }
    else { y with state := .granted .presenting }
  | .held a => { y with state := .granted a }
  | .granted _ => y

/-- The tone of a prompt replaces the tone in play (R15, R139, R140). -/
def toneSounded (s : State) (y : Prompt) : State :=
  match y.tone with
  | none => s
  | some n => { s with tgn := toneReplaced s.tgn (match s.pattern n with
    | [] => none
    | m :: rest => some ⟨m :: rest, .prompt y.cls, y.side, s.sideLevel y.side, m.steps⟩) }

/-- A prompt enters PRESENTING by a grant (R15). -/
def entersPresenting (y : Prompt) : Prop := y.state = .queued ∨ y.state = .held .presenting

/-- A prompt's record after a displacement (R19): HELD with the state it left, the span cursor kept. A repeat timer that its own replay
stopped starts again, the replay being no longer pending, unless that replay still plays to its element's end (log 21). A
displacement that reaches a QUEUED or HELD prompt is not taken. -/
def promptDisplaced (s : State) (y : Prompt) : Prompt :=
  match y.state with
  | .granted a =>
    { y with
      state := .held a
      repeatTimer :=
        if a = .awaiting ∧ (∃ r ∈ (s.schedule y.side).replay, r.slot = y.slot ∧ r.started = true) ∧ s.speaks y.slot = false then
          repeatStarts y
        else y.repeatTimer }
  | .queued | .held _ => y

/-- The pending replay of a side cleared, with its further-replay mark, where it names a prompt (R48). -/
def replayForgotten (s : State) (sd : Side) (slot : Nat) : State :=
  s.onSchedule sd fun y => if ∃ r ∈ y.replay, r.slot = slot then { y with replay := none } else y

/-- A prompt's span stopped at once where it is playing: the index at the span's length, the channel IDLE and last owned by its port (R31,
R46). -/
def spanStopped (s : State) (x : Prompt) : State :=
  if s.speaks x.slot = true then
    channelLastOwned (turnOver (s.onPrompt x.slot fun y => { y with elemIndex := y.span.length }) .idle) (some x.owner)
  else s

/-- A prompt removed, steps 1 to 3 of R24: its span stopped, its replay forgotten, its timers cancelled, its region given up with the last
owner set (R31), its slot free. -/
def promptRemoved (s : State) (x : Prompt) : State :=
  let u := replayForgotten (spanStopped s x) x.side x.slot
  let v := if (s.schedule x.side).owner = some x.slot then
    u.onSchedule x.side fun y => { y with owner := none, lastOwner := some x.owner } else u
  { v with
    ptb := { v.ptb with prompts := v.ptb.prompts.filter fun y => decide (y.slot ≠ x.slot) }
    late := timersLate s [x] }

/-- The state without the note of an expiry that has come. -/
def withoutExpiry (s : State) (slot : Nat) : State :=
  { s with late := { s.late with expiries := s.late.expiries.filter fun n => decide (n ≠ slot) } }

/-- The state without the note of a dwell that has come. -/
def withoutDwell (s : State) (slot : Nat) : State :=
  { s with late := { s.late with dwells := s.late.dwells.filter fun n => decide (n ≠ slot) } }

/-- A prompt removed and CLOSED offered to its owner, steps 1 to 4 of R24. -/
def promptLeft (s : State) (x : Prompt) (outcome : Byte) (detail : Word16) : State :=
  (promptRemoved s x).offer x.owner ⟨.closed, some x.side, some x.tag, outcome, detail, false⟩

/-- A closure, whole (R24): its last step chooses the side's region again (R35), then the channel settles (log 16). -/
def promptClosed (s : State) (x : Prompt) (outcome : Byte) (detail : Word16) : State :=
  ((promptLeft s x outcome detail).chooseRegion x.side).settle

/-- The prompts that a session's end closes, closed one after another in posting order, on the side now ASLEEP with its old language, mode
and volume (R23, R57; log 42). -/
def sessionClosed (s : State) (sd : Side) : State :=
  ((s.ptb.prompts.filter fun x => decide (x.side = sd ∧ (x.cls = .action ∨ x.cls = .confirm))).map (·.slot)).foldl
    (fun u n => match u.prompt n with
      | some x => promptClosed u x 7 0
      | none => u)
    (s.onSession sd fun x => { x with active := false, idle := none })

/-- The owners of both regions with their last-owner records are the same in two states. -/
def ownersSame (s t : State) : Prop :=
  ∀ sd, (t.schedule sd).owner = (s.schedule sd).owner ∧ (t.schedule sd).lastOwner = (s.schedule sd).lastOwner

/-- What a choice of a side's region again, from `s` to `t`, does to the two prompts concerned, before anything settles (R15, R19, R36):
the new owner is granted, with its tone on entry to PRESENTING, and the old one displaced, its turn lost at the end of the element (R46;
log 22) and its replay forgotten (R48); every other prompt stays. -/
structure RegionHanded (s t : State) (sd : Side) : Prop where
  table : t.ptb = ⟨s.ptb.prompts.map fun z =>
    if (t.schedule sd).owner = (s.schedule sd).owner then z
    else if (t.schedule sd).owner = some z.slot then promptGranted z
    else if (s.schedule sd).owner = some z.slot then promptDisplaced s z else z, s.ptb.counter⟩
  toned : ∀ y ∈ s.ptb.prompts, (t.schedule sd).owner = some y.slot → (t.schedule sd).owner ≠ (s.schedule sd).owner →
    (entersPresenting y → t.tgn = (toneSounded s y).tgn) ∧ (¬ entersPresenting y → t.tgn = s.tgn)
  quiet : (t.schedule sd).owner = (s.schedule sd).owner ∨ (t.schedule sd).owner = none → t.tgn = s.tgn
  turn : t.sch.turn = s.sch.turn ∧ t.spe = s.spe ∧ t.nq = s.nq
  ending : ∀ x ∈ s.ptb.prompts, (s.schedule sd).owner = some x.slot →
    t.sch.ending = if (t.schedule sd).owner ≠ (s.schedule sd).owner ∧ s.speaks x.slot = true then some .lost else s.sch.ending
  replay : (t.schedule sd).replay =
    if (t.schedule sd).owner ≠ (s.schedule sd).owner ∧ ∃ r ∈ (s.schedule sd).replay, (s.schedule sd).owner = some r.slot then none
    else (s.schedule sd).replay

/-- A side's prompts without a page record after its holder changed, from `s` to `t`: the eligible ones granted, the others displaced,
before the region is chosen again (R33; log 15). The speaker's turn is lost at the end of the element where it is one that is displaced
(R46; log 22). -/
def pagelessReviewed (s t : State) (sd : Side) : Prop :=
  postedPrompts t = postedPrompts s ∧ t.sch.turn = s.sch.turn ∧ t.spe = s.spe ∧ t.dsp = s.dsp ∧
  ((∃ x ∈ s.ptb.prompts, x.side = sd ∧ x.page = none ∧ ¬ mayPresent s x ∧ (∃ a, x.state = .granted a) ∧ s.speaks x.slot = true) →
    t.sch.ending = some .lost) ∧
  ((∀ x ∈ s.ptb.prompts, x.side = sd → x.page = none → (∃ a, x.state = .granted a) → s.speaks x.slot = true → mayPresent s x) →
    t.sch.ending = s.sch.ending) ∧ ∀ x ∈ s.ptb.prompts,
    (x.side = sd → x.page = none → mayPresent s x → t.prompt x.slot = some (promptGranted x)) ∧
    (x.side = sd → x.page = none → ¬ mayPresent s x → t.prompt x.slot = some (promptDisplaced s x)) ∧
    (x.side ≠ sd ∨ x.page ≠ none → t.prompt x.slot = some x)

/-- The state with an accepted prompt at the tail of the posting order (R2, R10 steps 2 to 4). -/
def promptPlaced (s : State) (x : Prompt) (slot : Nat) : State :=
  { s with ptb := ⟨s.ptb.prompts ++ [{ x with slot := slot, seq := s.ptb.counter }], s.ptb.counter + 1⟩ }

/-! ### A client reset (R25, R67, R166) -/

/-- The prompts of a port removed one after the other, without notices; then LOWER's region and UPPER's are chosen again where one of them
was on that side, and the channel settles (R25, R35, R50; logs 35 and 38). -/
def portRemoved (s : State) (p : Port) : State :=
  let u := (s.ptb.prompts.filter fun x => decide (x.owner = p)).foldl promptRemoved s
  let v := if ∃ x ∈ s.ptb.prompts, x.owner = p ∧ x.side = .lower then u.chooseRegion .lower else u
  (if ∃ x ∈ s.ptb.prompts, x.owner = p ∧ x.side = .upper then v.chooseRegion .upper else v).settle

/-- A side freed where a port holds it: its prompts are reviewed and its region chosen again, and then both regions (R50, R67). -/
def portFreed (s : State) (p : Port) (sd : Side) : State :=
  if (s.records sd).hold.holder = some p then
    (((((holdReleased s sd).reviewPageless sd).chooseRegion sd).settle.chooseRegion .lower).chooseRegion .upper).settle
  else s

/-- The post error record and the buffered write of a port cleared, but for a write under way (R115). -/
def portStoreCleared (s : State) (p : Port) : State :=
  { s with psc := { s.psc with ports := s.psc.ports.update p fun x =>
    { x with error := none, posted := if ∃ w ∈ x.posted, w.cond = .underWay then x.posted else none } } }

/-- The steps of a client reset that scheduling and speech follow, in the order of R166; LOWER is freed before UPPER (log 39). -/
def clientGone (s : State) (p : Port) : State :=
  let u := portFreed (portFreed (portRemoved (portStoreCleared s p) p) p .lower) p .upper
  if (s.link p).role = some .room then u.leaveService else u

/-- Prompts, channel, tone and region owners of a state are those of another. -/
def presentedAs (s t : State) : Prop :=
  t.ptb = s.ptb ∧ t.spe = s.spe ∧ t.tgn = s.tgn ∧ t.sch.turn = s.sch.turn ∧ ownersSame s t ∧
    ∀ sd, (t.schedule sd).replay = (s.schedule sd).replay ∧ (t.region sd).content = (s.region sd).content

/-! ### Renders, sessions and house values (R53, R54, R57, R143, R152) -/

/-- A store read under way for a region's render marked to be discarded (R143). -/
def readDropped (s : State) (sd : Side) : State :=
  match s.psc.transfer with
  | some (.display d page false) =>
    if d = sd then { s with psc := { s.psc with transfer := some (.display d page true) } } else s
  | _ => s

/-- A region whose render has been started from its content, in the side's language (R143, R145, R147; the texts of the fallback page: log
48, its letters: log 11). -/
def regionRendered (s : State) (sd : Side) : Region :=
  match (s.region sd).content with
  | .prompt _ g => rendered s sd (s.records sd).session.language [] (pageElems g) (s.region sd)
  | .empty =>
    { s.region sd with
      texts1 := [], texts2 := [], line1 := List.replicate 24 0x20, line2 := List.replicate 24 0x20, builtin := false, render := none }
  | .fallback =>
    { s.region sd with
      texts1 := [], texts2 := [], line1 := fallbackLine, line2 := List.replicate 24 0x20, builtin := true, render := none }

/-- A render of a region begun, which abandons one in progress (R143). -/
def renderBegun (s : State) (sd : Side) : State := (readDropped s sd).onRegion sd fun _ => regionRendered s sd

/-- A side's language differs from `old`: a prompt that its region shows is rendered again (R59, R143). -/
def languageTaken (s : State) (sd : Side) (old : Fin 4) : State :=
  if (s.records sd).session.language ≠ old ∧ (s.region sd).showsPrompt = true then renderBegun s sd else s

/-- A side's speech mode, once `old`, changed by a session's end or the house values, or a side gone ASLEEP (R40, R41, R46, R53, R57): the
ending of a speaker noted, and where the mode became OFF the pending replay cleared. -/
def modeTaken (s : State) (sd : Side) (old : SpeechMode) : State :=
  if old ≠ .off ∧ (s.records sd).session.mode = .off then replayCleared (endingNoted s sd) sd else endingNoted s sd

/-- A session begun on a side, whole: a panel that was OFF settles, and both regions are rendered for it, LOWER first (R54, R152). -/
def sessionStarted (s : State) (sd : Side) : State :=
  if s.dsp.power = .off then renderBegun (renderBegun (sessionBegun s sd) .lower) .upper else sessionBegun s sd

/-- The state after a session-start event of a key, whole: an ACTIVE side's idle timer restarts, an ASLEEP side's session begins (R54,
R56). -/
def eventWoken (s : State) (sd : Side) : State :=
  if (s.records sd).session.active = true then idleRestarted s sd else sessionStarted s sd

/-- A session ended on a side, whole (R57): the closures, the house values, SESSION (ended) to the ports whose mask enables it, the panel
rested, the new language rendered, and what the new mode and the ASLEEP side ask of speech; then the channel settles (log 16). -/
def sessionLeft (s : State) (sd : Side) (cause : Word16) : State :=
  let old := (s.records sd).session
  let u := sessionClosed s sd
  let v := (u.onSession sd fun x => { x with language := u.cfg.language, mode := u.cfg.mode, volume := u.cfg.volume }).offerMasked
    ⟨.session, some sd, none, 2, cause, false⟩
  (modeTaken (languageTaken { v with dsp := panelRested v sd } sd old.language) sd old.mode).settle

/-- The house values taken by a side that is ASLEEP (R53): rendered again under another language; under another mode, what R40 and R41 ask
of its speech. -/
def houseTaken (s : State) (sd : Side) : State :=
  let old := (s.records sd).session
  if old.active = true then s
  else
    let u := languageTaken (s.onSession sd fun x => { x with language := s.cfg.language, mode := s.cfg.mode, volume := s.cfg.volume }) sd
      old.language
    if s.cfg.mode = old.mode then u else modeTaken u sd old.mode

/-! ### Who claims the store bus (R110, R126, R144) -/

/-- What a client port claims the bus for: its buffered write first, else its read or direct write in work (R110). -/
def portClaims (s : State) (p : Port) : PortClaim → Prop
  | .posted w => (s.portStore p).posted = some w ∧ w.cond = .claiming
  | .read page offset length => (∀ w, (s.portStore p).posted = some w → w.cond ≠ .claiming) ∧
      ∃ c q, (s.link p).inWork = some ⟨c, q, .read page offset length false⟩
  | .write page offset data => (∀ w, (s.portStore p).posted = some w → w.cond ≠ .claiming) ∧
      ∃ c q, (s.link p).inWork = some ⟨c, q, .write page offset data⟩

/-- The place of a port in the circular order A, B, C, D that begins after the port served last, or at A after a reset (R110). -/
def turnsAway (last : Option Port) (p : Port) : Nat :=
  match last with
  | none => (portNumber p).toNat
  | some l => ((portNumber p).toNat + 3 - (portNumber l).toNat) % 4

/-- The store slots of a resolved phrase from one block on, in playing order (R92, R126). -/
def slotsFrom (r : Resolution) (first : Nat) : List Need :=
  (List.range (r.blocks - first)).map fun i => ⟨(r.first + (first + i + 1) / 8) % 512, (first + i + 1) % 8, r⟩

/-- The store slots that the element in play still needs, in playing order, from the block it stands at (R126). -/
def slotsAhead (s : State) : List Need :=
  match s.spe.channel, s.spe.element with
  | .speaking, some e =>
    match e.rest with
    | [] => []
    | w :: rest =>
      (match w.res with
        | some r => slotsFrom r (match e.at_ with | .ready n | .block n => n | .word | .pause _ => 0)
        | none => []) ++
        rest.flatMap fun x => match x.res with | some r => slotsFrom r 0 | none => []
  | _, _ => []

/-- The pages that may be fetched for now: the one being decoded and the three of the element that follow it (R126). -/
def pagesNear (s : State) : List Nat := prefetchWindow (slotsAhead s)

/-- A copy that may go so that another page finds room: not of the pinned page, and of no page still ahead (R126). -/
def mayGo (s : State) (c : PageCopy) : Prop := s.spe.pin ≠ some c.page ∧ ∀ m ∈ slotsAhead s, m.page ≠ c.page

/-- A page has a copy or finds room for one; the page being decoded finds room also where every copy that could go is of a page still ahead
(R126; log 24). -/
def findsRoom (s : State) (page : Nat) : Prop :=
  (∃ c ∈ s.spe.prefetch, c.page = page) ∨ s.spe.prefetch.length < 4 ∨ (∃ c ∈ s.spe.prefetch, mayGo s c) ∨
    ((∃ m, (slotsAhead s).head? = some m ∧ m.page = page) ∧
      ∃ c ∈ s.spe.prefetch, s.spe.pin ≠ some c.page ∧ c.page ∉ pagesNear s)

/-- The Speech Engine claims the bus for a slot (R110, R126): the first in playing order, of the pages that may be fetched, that has not been
fetched, unless its page's pin is awaited (R112; log 24) or its page finds no room. -/
def speechClaims (s : State) (n : Need) : Prop :=
  (∃ before after, slotsAhead s = before ++ n :: after ∧
    ∀ m ∈ before, m.page ∈ pagesNear s → fetchedSlot s.spe.prefetch m.page m.slot ≠ none) ∧
  n.page ∈ pagesNear s ∧ fetchedSlot s.spe.prefetch n.page n.slot = none ∧ s.pinAwaited ≠ some n.page ∧ findsRoom s n.page

end Sys2Proof.Claims


open Sys2Proof Sys2Proof.Machine Sys2Proof.Claims

/-! ### Steps, resets, queue -/

/-- A step of a state whose queue holds a command is that command's effect on the state with the queue's rest. -/
def Obligations.StepTakesFrontCommand : Prop :=
  ∀ (c : Instr) (rest : List Instr) (s : State), s.pending = c :: rest → step s = exec c (s.withQueue rest)

/-- With an empty queue a step is one step of the 10 ms time base (log 2, the model's choice): every timer that runs counts one step and
stays at its end, service mode freezes the expiry, idle and lapse timers and leaves the second timer running (R177, R70), the expiry
timer keeps its last step (log 2), the dwell timer does not run under the prompt's replay (log 37), the moment in which ends of timers
can be overtaken is over (log 36), and nothing else changes: no timer expires. -/
def Obligations.EmptyQueueCountsTimers : Prop :=
  ∀ s : State, s.pending = [] → ∃ t, step s = .next t ∧
    changesOnly [.links, .ignoreTime, .prompts, .scheduler, .sides, .keys, .speech, .tones, .display, .service, .overtaken] s t ∧
    t.ignoreLeft = s.ignoreLeft.map (fun n => n - 10) ∧
    (∀ p, t.link p = { s.link p with
      gapLate := false
      gap := match (s.link p).receive with
        | .ignore | .hunt => (s.link p).gap
        | _ => min 2 ((s.link p).gap + 1) }) ∧
    t.ptb = ⟨s.ptb.prompts.map fun x =>
      { x with
        expiryLeft := if s.stu.flag = true then x.expiryLeft else x.expiryLeft.map fun n => if n ≤ 1 then n else n - 1
        dwellLeft := if x.state = .granted .dwelling ∧ s.sch.turn ≠ some (.prompt x.slot .replay) then x.dwellLeft - 1 else x.dwellLeft
        repeatTimer := x.repeatTimer.map fun n => n - 1 }, s.ptb.counter⟩ ∧
    t.sch = { s.sch with sides := t.sch.sides } ∧
    (∀ sd, t.schedule sd = { s.schedule sd with unbound :=
      if (s.schedule sd).unbound.running = true then ⟨min 500 ((s.schedule sd).unbound.count + 1), true⟩ else (s.schedule sd).unbound }) ∧
    (∀ sd, t.records sd =
      ⟨{ (s.records sd).session with idle :=
          if s.stu.flag = true then (s.records sd).session.idle
          else (s.records sd).session.idle.map fun x => ⟨min (x.limit * 100) (x.elapsed + 1), x.limit⟩ },
        { (s.records sd).hold with lapse :=
          if s.stu.flag = true then (s.records sd).hold.lapse
          else (s.records sd).hold.lapse.map fun x => ⟨min (x.limit * 100) (x.elapsed + 1), x.limit⟩ },
        { (s.records sd).cycle with second := (s.records sd).cycle.second.map fun n => min 100 (n + 1) }⟩) ∧
    t.ksc.scanning = s.ksc.scanning ∧ (∀ sd, (t.ksc.sides.get sd).knob = (s.ksc.sides.get sd).knob) ∧
    (∀ sd k r, r = { s.keyRecord sd k with makeLate := false, breakLate := false } → t.keyRecord sd k =
      match r.state with
      | .idle => r
      | .making n => { r with state := .making (min 3 (n + 1)) }
      | .down => { r with held := min 150 (r.held + 1) }
      | .breaking n => { r with state := .breaking (min 3 (n + 1)) }) ∧
    t.spe = { s.spe with recovery := s.spe.recovery.map fun n => min 20 (n + 1) } ∧
    t.tgn = ⟨s.tgn.patterns, s.tgn.current.map fun x => { x with left := x.left - 1 }, false⟩ ∧
    t.dsp =
      { s.dsp with
        blinkCount := min 25 (s.dsp.blinkCount + 1)
        panelOff := s.dsp.panelOff.map fun x => ⟨min (x.limit * 100) (x.elapsed + 1), x.limit⟩
        settling := s.dsp.settling.map fun n => min 10 (n + 1)
        offLate := false } ∧
    t.stu = { s.stu with
      checkLate := false
      result := match s.stu.result with
        | .running (.keyCheck d n c) => .running (.keyCheck d (min d (n + 1)) c)
        | r => r } ∧
    t.overtaken = ⟨⟨false, false, false, false⟩, ⟨false, false, false, false⟩⟩ ∧ t.late = ⟨[], [], []⟩

/-- No command stops the part, and none but the step itself touches the queue (log 31: the spec names no stop). -/
def Obligations.CommandsNeverStop : Prop :=
  ∀ (c : Instr) (s : State), ∃ t, exec c s = .next t ∧ t.pending = s.pending

/-- What the spec says of the state after a power-on reset (R28, R52, R63, R68, R91, R95, R100, R106, R108, R118, R138, R139, R142, R148,
R150, R152, R154, R156, R171, R175, R177, R181), with the tone patterns, the font and the segment map as they are built in, and that the
invariants stated below hold there. -/
def Obligations.ResetState : Prop :=
  (∀ p, (State.reset.link p).role = none ∧ (State.reset.link p).receive = .ignore ∧ (State.reset.link p).inWork = none ∧
    (State.reset.link p).transmit = [] ∧ noticesOf State.reset p = [] ∧ (State.reset.nq.get p).mask = 0xFFF ∧
    (State.reset.nq.get p).attn = false ∧ (State.reset.portStore p).posted = none ∧ (State.reset.portStore p).error = none ∧
    (State.reset.portStore p).windows = ⟨⟨false, 0, 0, 0, false, false, false⟩, ⟨false, 0, 0, 0, false, false, false⟩⟩) ∧
  State.reset.ignoreLeft = some 20 ∧ State.reset.ptb = ⟨[], 0⟩ ∧
  (∀ sd, (State.reset.records sd).session = ⟨false, 0, .on, 1, none⟩ ∧ (State.reset.records sd).hold = ⟨none, none⟩ ∧
    (State.reset.records sd).cycle = ⟨.idle, 0, false, none⟩ ∧ State.reset.schedule sd = ⟨none, none, false, ⟨0, false⟩, none⟩ ∧
    State.reset.region sd = ⟨.empty, [], [], List.replicate 24 0x20, List.replicate 24 0x20, false, 0, 0, none⟩) ∧
  State.reset.sch.turn = none ∧ State.reset.sch.preempt = false ∧ State.reset.sch.lastChannel = none ∧
  State.reset.sch.safetyCut = false ∧ State.reset.sch.ending = none ∧
  State.reset.spe = ⟨.idle, none, none, 0, 0, [], none⟩ ∧ State.reset.tgn.current = none ∧
  (∀ n, State.reset.pattern n = if n = 14 then [⟨121, 2⟩] else if n = 15 then [⟨15, 8⟩, ⟨0, 4⟩, ⟨15, 8⟩] else []) ∧
  (∀ code r, State.reset.glyphRow false code r = 0) ∧ State.reset.dsp.map = (List.range 32).map some ∧
  (∀ page offset, readByte State.reset.psc.memory page offset = 0) ∧
  (∀ n l, State.reset.entry n l = ⟨false, 0, 0, false⟩) ∧ State.reset.psc.transfer = none ∧ State.reset.psc.lastServed = none ∧
  State.reset.dsp.power = .off ∧ State.reset.dsp.panelOff = none ∧ State.reset.dsp.settling = none ∧
  State.reset.dsp.lampTest = false ∧ State.reset.dsp.blank = false ∧ State.reset.stu = ⟨false, .empty, none, false⟩ ∧
  State.reset.cfg = ⟨0, .on, 1, ⟨20, 14, 8, 2⟩, 120, 120, 60, 16, 16, 8, 8, false, true⟩ ∧ State.reset.pending = [] ∧
  storeCanonical State.reset ∧ attnFollows State.reset ∧ queuesBounded State.reset ∧ rolesBoundOnce State.reset ∧
  placesBounded State.reset ∧ unboundHoldNothing State.reset ∧ cyclesConsistent State.reset ∧ tableConsistent State.reset ∧
  speechConsistent State.reset ∧ panelConsistent State.reset ∧ sidesConsistent State.reset ∧ regionsOwned State.reset ∧
  WritesGuarded State.reset

/-- POWER_ON_RESET and EXTERNAL_RESET: every block at its reset values; an external reset keeps the directory, tone patterns, font and
map, and the store apart from the bytes of a write under way, each of which is old or new (R116, R117, R138, R148, R150, R171). The
contacts of keys and knobs are pins and stay (log 6); every key is IDLE, nothing held and nothing spent (log 52, the model's choice), and
every knob has no leaving position (log 56, the model's choice) and is not seeking (R75, R77). -/
def Obligations.WholePartResets : Prop :=
  (∀ s : State, exec .powerOnReset s =
    .next { State.reset with ksc := ⟨false, s.ksc.sides.mapAll sideAtRest⟩, pending := s.pending, free := s.free }) ∧
  ∀ s : State, ∃ f m, exec .externalReset s = .next
      { State.reset with
        ksc := ⟨false, s.ksc.sides.mapAll sideAtRest⟩, pending := s.pending, free := f, ignoreLeft := some 2
        psc := { State.reset.psc with memory := m, directory := s.psc.directory }
        tgn := ⟨s.tgn.patterns, none, false⟩, dsp := { State.reset.dsp with font := s.dsp.font, map := s.dsp.map } } ∧
    ((∀ p pg o d, s.psc.transfer ≠ some (.write p pg o d) ∧ s.psc.transfer ≠ some (.posted p pg o d)) →
      m = s.psc.memory ∧ f = s.free) ∧
    (storeCanonical s → Memory.wf m = true ∧ ∀ page offset,
      readByte m page offset = readByte s.psc.memory page offset ∨
      ∃ p pg o d i, (s.psc.transfer = some (.write p pg o d) ∨ s.psc.transfer = some (.posted p pg o d)) ∧ i < d.length ∧
        storeKey page offset = storeKey pg (o + i) ∧ readByte m page offset = d.getD i 0)

/-- IGNORE_TIME_END: all receivers enter HUNT, scanning begins with a closed key in DOWN and spent and an open one IDLE, with held time 0 and
the open key's spent mark clear (log 52, the model's choice) and the knobs without a leaving position (log 56, the model's choice), and the unbound timers of the sides whose drum is unbound start at 0 (R171, R75, R77, R37); when no ignore time runs it changes
nothing (log 5). -/
def Obligations.IgnoreTimeEnds : Prop :=
  ∀ s : State,
    (s.ignoreLeft = none → exec .ignoreTimeEnd s = .next s) ∧
    (s.ignoreLeft ≠ none → ∃ t, exec .ignoreTimeEnd s = .next t ∧
      changesOnly [.links, .ignoreTime, .scheduler, .keys] s t ∧ t.ignoreLeft = none ∧
      (∀ p, t.link p = { s.link p with receive := .hunt, gap := 0 }) ∧ t.ksc.scanning = true ∧
      (∀ sd x, t.keyRecord sd x =
        if (s.keyRecord sd x).closed then ⟨true, .down, 0, true, false, false⟩ else ⟨false, .idle, 0, false, false, false⟩) ∧
      (∀ sd, (t.ksc.sides.get sd).knob.seeking =
        ((s.ksc.sides.get sd).knob.p || (s.ksc.sides.get sd).knob.q) ∧ (t.ksc.sides.get sd).knob.leaving = none) ∧
      ∀ sd, t.schedule sd =
        if s.portOf (drumRole sd) = none then { s.schedule sd with unbound := ⟨0, true⟩ } else s.schedule sd)

/-! ### Links -/

/-- BYTE_TAKEN and GAP_TIMER_EXPIRY, by the table of R157, with the frame errors of R158; a frame whose last CRC byte arrives is taken
as the same frame given whole to REQUEST_FRAME (log 3), and one with a wrong CRC or length is a frame error. A gap timer's end in IGNORE or
HUNT, where R157 runs none, changes nothing (log 5), nor does one that a byte or frame of the same moment has overtaken (log 36). -/
def Obligations.ReceiverTakesBytes : Prop :=
  ∀ (s : State) (p : Port) (b : Byte) (stop : Bool),
    ((s.link p).gapLate = true →
      exec (.gapTimerExpiry p) s = .next { s with lnk := s.lnk.update p fun l => { l with gapLate := false } }) ∧
    ((s.link p).gapLate = false → exec (.gapTimerExpiry p) s =
      .next (if (s.link p).receive = .ignore ∨ (s.link p).receive = .hunt then s else gapOver s p)) ∧
    ((s.link p).receive = .ignore → exec (.byteTaken p b stop) s = .next s) ∧
    ((s.link p).receive = .hunt →
      exec (.byteTaken p b stop) s = .next (if stop = true ∧ b = 0xA5 then receiving s p .length else s)) ∧
    ((s.link p).receive = .length →
      exec (.byteTaken p b stop) s = .next
        (if stop = true ∧ 2 ≤ b.toNat ∧ b.toNat ≤ 250 then receiving s p (.body b.toNat []) else afterFrameError s p)) ∧
    (∀ n got, (s.link p).receive = .body n got →
      exec (.byteTaken p b stop) s = .next
        (if stop = true then
          receiving s p (if got.length + 1 < n then .body n (got ++ [b]) else .check (got ++ [b]) none)
        else afterFrameError s p)) ∧
    (∀ body low, (s.link p).receive = .check body low →
      (stop = false → exec (.byteTaken p b stop) s = .next (afterFrameError s p)) ∧
      (stop = true → low = none → exec (.byteTaken p b stop) s = .next (receiving s p (.check body (some b)))) ∧
      (stop = true → ∀ lo, low = some lo → 2 ≤ body.length → body.length ≤ 250 →
        exec (.byteTaken p b stop) s = exec (.requestFrame p body (wordOf lo b)) s)) ∧
    (∀ body crc, (s.link p).receive ≠ .ignore → body.length < 2 ∨ 250 < body.length ∨ frameCrc body ≠ crc →
      exec (.requestFrame p body crc) s = .next (afterFrameError s p))

/-- REQUEST_FRAME: a frame with a right CRC whose code and body spell a request is that request's row (log 3, read from the spec by
inference: the row is exactly the whole frame), a code and sequence of READ
IDENTITY are answered, and a body that spells no request is refused with BAD_FIELD (R157, R159, R162 step 5, R172). -/
def Obligations.FrameIsItsRequest : Prop :=
  (∀ (s : State) (c : Instr) (p : Port) (q : Byte) (r : Request) (rest : List Byte), requestOf c = some (p, q, r) →
    parseRequest (requestCode r) rest = some r → rest.length ≤ 248 →
    exec (.requestFrame p (requestCode r :: q :: rest) (frameCrc (requestCode r :: q :: rest))) s = exec c s) ∧
  (∀ (s : State) (p : Port) (q : Byte), ready s p 0x04 → exec (.requestFrame p [0x04, q] (frameCrc [0x04, q])) s =
    .next (answered s p 0x04 q .ok [0x43, 0x2A, 1, portNumber p, roleCode (s.link p).role])) ∧
  ∀ (s : State) (p : Port) (code q : Byte) (rest : List Byte), ready s p code → parseRequest code rest = none →
    rest.length ≤ 248 → exec (.requestFrame p (code :: q :: rest) (frameCrc (code :: q :: rest))) s =
      .next (answered s p code q .badField [])

/-- Requests that are not carried out: in IGNORE nothing is taken (R171); one that arrives while another is in work is answered BUSY with
its own code and sequence byte if one of the three places is free, and dropped (R160, R161); one that fails a check of R162 steps
1 to 5, in their order and with the permissions of R163, is answered with that status, and nothing else changes. -/
def Obligations.RequestsRefused : Prop :=
  (∀ (s : State) (c : Instr) (p : Port) (q : Byte) (r : Request), requestOf c = some (p, q, r) →
    ((s.link p).receive = .ignore → exec c s = .next s) ∧
    ((s.link p).receive ≠ .ignore → (s.link p).inWork ≠ none →
      exec c s = .next { s with lnk := s.lnk.update p fun l => busyLink l (requestCode r) q })) ∧
  (∀ (s : State) (p : Port) (code : Byte),
    (code ∉ requestCodes → s.codeCheck p code = some .unknownRequest) ∧
    (code ∈ requestCodes → (s.link p).role = none →
      s.codeCheck p code = if code = 0x01 ∨ code = 0x03 ∨ code = 0x04 then none else some .notBound) ∧
    ∀ r, code ∈ requestCodes → (s.link p).role = some r →
      (mayNotSend r code → s.codeCheck p code = some .notPermitted) ∧
      (¬ mayNotSend r code → s.codeCheck p code =
        if (code = 0x52 ∨ code = 0x53 ∨ code = 0x55) ∧ s.stu.flag = false then some .serviceOnly else none)) ∧
  ∀ (s : State) (c : Instr) (p : Port) (q : Byte) (r : Request) (st : Status), requestOf c = some (p, q, r) →
    (s.link p).receive ≠ .ignore → (s.link p).inWork = none → (s.link p).keptTaken = false →
    (s.codeCheck p (requestCode r) = some st → exec c s = .next (answered s p (requestCode r) q st [])) ∧
    (s.codeCheck p (requestCode r) = none → wellSized r = false →
      exec c s = .next (answered s p (requestCode r) q .badField []))

/-- FRAME_TRANSMITTED frees the place of the frame sent; a response that waited for the kept place takes it when it is free. A request
whose response finds the kept place taken stays in work with it: one refused by a check, one refused for its counts or flags, and one
that its block answers at once, whatever request it is (R160, R162). A request that its block leaves in work is in work for what it waits
for, the kept place taken or not: READ PAGE, WRITE PAGE direct or behind the port's buffered write, STORE SUM and SPEECH CHECK (R161). -/
def Obligations.TransmitPlaces : Prop :=
  (∀ (s : State) (p : Port),
    ((∀ c q g, (s.link p).inWork ≠ some ⟨c, q, .response g⟩) →
      exec (.frameTransmitted p) s = .next { s with lnk := s.lnk.update p fun l => { l with transmit := l.transmit.tail } }) ∧
    ∀ c q g, (s.link p).inWork = some ⟨c, q, .response g⟩ →
      exec (.frameTransmitted p) s = .next { s with lnk := s.lnk.update p fun l => placedLink l g }) ∧
  (∀ (s : State) (p : Port) (q : Byte), (s.link p).receive ≠ .ignore → (s.link p).inWork = none →
    (s.link p).keptTaken = true →
    exec (.readIdentity p q) s = .next (inWorkWith s p 0x04 q
      (.response ⟨0x84, q, .ok, [0x43, 0x2A, 1, portNumber p, roleCode (s.link p).role], true⟩))) ∧
  (∀ (s : State) (c : Instr) (p : Port) (q : Byte) (r : Request), requestOf c = some (p, q, r) →
    (s.link p).receive ≠ .ignore → (s.link p).inWork = none → (s.link p).keptTaken = true →
    (∀ st, s.codeCheck p (requestCode r) = some st → exec c s =
      .next (inWorkWith s p (requestCode r) q (.response ⟨requestCode r ||| 0x80, q, st, [], true⟩))) ∧
    (s.codeCheck p (requestCode r) = none → wellSized r = false → exec c s =
      .next (inWorkWith s p (requestCode r) q (.response ⟨requestCode r ||| 0x80, q, .badField, [], true⟩))) ∧
    ∀ st body u, s.codeCheck p (requestCode r) = none → wellSized r = true →
      (receiving s p .hunt).carryOut p r = (.answer st body, u) → exec c s =
        .next { u with lnk := u.lnk.update p fun l =>
          { l with inWork := some ⟨requestCode r, q, .response ⟨requestCode r ||| 0x80, q, st, body, true⟩⟩ } }) ∧
  (∀ (s u : State) (c : Instr) (p : Port) (q : Byte) (r : Request) (w : Work), requestOf c = some (p, q, r) →
    (s.link p).receive ≠ .ignore → (s.link p).inWork = none → s.codeCheck p (requestCode r) = none → wellSized r = true →
    (receiving s p .hunt).carryOut p r = (.wait w, u) →
    exec c s = .next { u with lnk := u.lnk.update p fun l => { l with inWork := some ⟨requestCode r, q, w⟩ } }) ∧
  ∀ (s : State) (p : Port) (q : Byte), (s.link p).receive ≠ .ignore → (s.link p).inWork = none → (s.link p).keptTaken = true →
    (∀ page offset length w, s.codeCheck p 0x31 = none → pageInRange page offset length → s.hit p page.toNat = some w → w.read = true →
      ∃ waits, exec (.readPage p q page offset length) s = .next
        (inWorkWith s p 0x31 q (.read ((page.toNat + w.offset) % 512) offset.toNat length.toNat waits))) ∧
    (∀ (page offset : Word16) (length : Byte) (data : List Byte), s.codeCheck p 0x30 = none → data.length = length.toNat →
      pageInRange page offset length →
      ((s.portStore p).posted ≠ none → exec (.writePage p q page offset length data) s =
        .next (inWorkWith s p 0x30 q (.heldWrite page.toNat offset.toNat data))) ∧
      ∀ w, (s.portStore p).posted = none → s.hit p page.toNat = some w → w.posted = false → w.write = true →
        s.spe.pin ≠ some ((page.toNat + w.offset) % 512) → exec (.writePage p q page offset length data) s =
          .next (inWorkWith s p 0x30 q (.write ((page.toNat + w.offset) % 512) offset.toNat data))) ∧
    (∀ a b : Word16, s.codeCheck p 0x53 = none → s.stu.result = .empty →
      (a.toNat ≤ b.toNat → b.toNat ≤ 511 → exec (.storeSum p q a b) s =
        .next (inWorkWith (resultSet s (.running (.storeSum a.toNat b.toNat 0 0))) p 0x53 q .testStart)) ∧
      ∀ l : Fin 4, a.toNat ≤ 254 → b.toNat = l.val → (s.entry a.toNat l).present = true → (s.entry a.toNat l).blocks ≠ 0 →
        exec (.speechCheck p q a b) s = .next (inWorkWith (resultSet s (.running (.speechCheck
          ⟨a.toNat, l, (s.entry a.toNat l).first, (s.entry a.toNat l).blocks, (s.entry a.toNat l).text⟩ 0 0))) p 0x53 q .testStart))

/-- A notice offered to a bound port is taken by the table of R167 and ATTN follows (R169); one offered to an unbound port is
discarded; PHASE, COUNTDOWN_ZERO and SESSION go to the bound ports whose mask enables the kind (R60). -/
def Obligations.NoticeQueueTakes : Prop :=
  ∀ (s : State) (p : Port) (n : Notice),
    ((s.link p).role = none → s.offer p n = s) ∧
    ((s.link p).role ≠ none → s.offer p n =
      { s with nq := s.nq.update p fun q => queueWith q (queueAfter q.notices n) }) ∧
    changesOnly [.notices] s (s.offerMasked n) ∧
    (s.offerMasked n).nq.get p =
      (if (s.link p).role ≠ none ∧ (s.nq.get p).mask.getLsbD (n.kind.code - 1) = true then
        queueWith (s.nq.get p) (queueAfter (noticesOf s p) n) else s.nq.get p)

/-- READ IDENTITY is open to every port and answers with vendor code 0x43, part code 0x2A, revision 1, the port's number and its role
(R170). -/
def Obligations.IdentityRead : Prop :=
  ∀ (s : State) (p : Port) (q : Byte), s.codeCheck p 0x04 = none ∧
    (ready s p 0x04 →
      exec (.readIdentity p q) s = .next (answered s p 0x04 q .ok [0x43, 0x2A, 1, portNumber p, roleCode (s.link p).role]))

/-- FETCH NOTICE (R168): the head goes out with the number left, ATTN is evaluated again; an empty queue answers EMPTY. The bytes lie as
R173 and R174 lay them out, the flag bits that those leave undefined clear (log 12, read from the spec by inference). -/
def Obligations.NoticeFetched : Prop :=
  ∀ (s : State) (p : Port) (q : Byte), ready s p 0x05 →
    (noticesOf s p = [] → exec (.fetchNotice p q) s = .next (answered s p 0x05 q .empty [])) ∧
    ∀ n rest, noticesOf s p = n :: rest →
      exec (.fetchNotice p q) s = .next (answered { s with nq := s.nq.update p fun x => queueWith x rest } p 0x05 q .ok
        ([byteOf n.kind.code, flagByte n.side.isSome (decide (n.side = some .upper)) n.tag.isSome n.test, n.tag.getD 0, n.detail1]
          ++ bytesOf n.detail2 ++ [byteOf rest.length]))

/-- SET ATTENTION MASK replaces the mask, and ATTN follows (R169); bits 12 to 15 are refused (R173). -/
def Obligations.AttentionMaskSet : Prop :=
  ∀ (s : State) (p : Port) (q : Byte) (m : Word16), ready s p 0x06 →
    exec (.setAttentionMask p q m) s = .next
      (if m.toNat < 4096 then
        answered { s with nq := s.nq.update p fun x => ⟨x.notices, m.setWidth 12, attnLevel x.notices (m.setWidth 12)⟩ }
          p 0x06 q .ok []
      else answered s p 0x06 q .badField [])

/-- BIND ROLE by the table of R164: a free role is bound, the mask becomes all-enabled, and a drum role stops its side's unbound timer
and takes a fallback page down (R37). An end of that timer that falls together with the binding is noted as overtaken (log 36). -/
def Obligations.RoleBound : Prop :=
  ∀ (s : State) (p : Port) (q b : Byte), ready s p 0x01 →
    (roleOf b = none → exec (.bindRole p q b) s = .next (answered s p 0x01 q .badField [])) ∧
    ∀ r, roleOf b = some r →
      ((s.link p).role = some r → exec (.bindRole p q b) s = .next (answered s p 0x01 q .ok [b])) ∧
      (∀ x, (s.link p).role = some x → x ≠ r → exec (.bindRole p q b) s = .next (answered s p 0x01 q .portBound [])) ∧
      ((s.link p).role = none → s.portOf r ≠ none → exec (.bindRole p q b) s = .next (answered s p 0x01 q .roleTaken [])) ∧
      ((s.link p).role = none → s.portOf r = none → ∃ t, exec (.bindRole p q b) s = .next t ∧
        t.link p = { answeredLink (s.link p) 0x01 q .ok [b] with role := some r } ∧ (∀ p', p' ≠ p → t.link p' = s.link p') ∧
        t.nq.get p = ⟨noticesOf s p, 0xFFF, attnLevel (noticesOf s p) 0xFFF⟩ ∧ (∀ p', p' ≠ p → t.nq.get p' = s.nq.get p') ∧
        (∀ sd, drumRole sd = r →
          t.schedule sd = { s.schedule sd with unbound := ⟨0, false⟩, fallbackDue := false } ∧
          ((s.region sd).content = .fallback → (t.region sd).content = .empty ∧
            (t.region sd).line1 = List.replicate 24 0x20 ∧ (t.region sd).line2 = List.replicate 24 0x20) ∧
          ((s.region sd).content ≠ .fallback → t.region sd = s.region sd)) ∧
        (∀ sd, drumRole sd ≠ r → t.schedule sd = s.schedule sd ∧ t.region sd = s.region sd) ∧
        t.late = s.late ∧
        (∀ sd, t.overtaken.get sd = { s.overtaken.get sd with
          unbound := (s.overtaken.get sd).unbound ||
            decide (drumRole sd = r ∧ (s.schedule sd).unbound.running = true ∧ 500 ≤ (s.schedule sd).unbound.count) }) ∧
        changesOnly [.links, .notices, .scheduler, .display, .store, .overtaken] s t ∧ t.psc.memory = s.psc.memory ∧
        t.psc.ports = s.psc.ports ∧ t.psc.directory = s.psc.directory)

/-- CLIENT RESET and UNBIND ROLE (R165, R166): what ResetDone lists, then the response; an unbinding port gives up its role, and a drum
starts its side's unbound timer from 0 (R37). Regions and channel are as clientGone leaves them: the regions of the removed prompts and
of a side that the port held are chosen again (R25, R35, R50, R67), LOWER before UPPER and with the channel settled between (logs 35, 38
and 39, the model's choices), and a ROOM port leaves service mode. On a freed side the prompts without a page record are reviewed before
the region is chosen (log 15), and a channel that is freed is granted after the choice (log 16), the model's choices too. The channel is
granted again after the leaving of service mode (log 54, the model's choice). Ends of the removed prompts' timers that fall together with
the removal do not come, nor does a lapse of the port's hold, a fall of its drum's second or an end of a KEY CHECK (log 36). The slots of
the live prompts are distinct (R12). -/
def Obligations.ClientResetClears : Prop :=
  (∀ (s : State) (p : Port) (q : Byte), slotsDistinct s → ready s p 0x03 → ∃ t, exec (.clientReset p q) s = .next t ∧ ResetDone s t p ∧
    presentedAs (clientGone (receiving s p .hunt) p) t ∧
    t.link p = answeredLink (s.link p) 0x03 q .ok [] ∧ ∀ p', p' ≠ p → t.link p' = s.link p') ∧
  ∀ (s : State) (p : Port) (q : Byte), slotsDistinct s → ready s p 0x02 → ∃ t, exec (.unbindRole p q) s = .next t ∧ ResetDone s t p ∧
    presentedAs (clientGone (receiving s p .hunt) p) t ∧
    t.link p = { answeredLink (s.link p) 0x02 q .ok [] with role := none } ∧ (∀ p', p' ≠ p → t.link p' = s.link p') ∧
    ∀ sd, (s.link p).role = some (drumRole sd) → (t.schedule sd).unbound = ⟨0, true⟩

/-! ### Prompts -/

/-- POST PROMPT, refused: the side field, the drum's own side, the content, a live tag without the replace flag, the quota, and a full
table, in that order; nothing but the response changes (R7, R8, R9). -/
def Obligations.PostRefused : Prop :=
  ∀ (s : State) (p : Port) (q : Byte) (b : PromptBody), ready s p 0x10 → wellSized (.postPrompt b) = true →
    (sideOf b.side = none → exec (.postPrompt p q b) s = .next (answered s p 0x10 q .badField [])) ∧
    ∀ sd, sideOf b.side = some sd →
      (roleReachesSide (s.link p).role sd = false →
        exec (.postPrompt p q b) s = .next (answered s p 0x10 q .notPermitted [])) ∧
      (roleReachesSide (s.link p).role sd = true →
        (promptOf p sd b = none → exec (.postPrompt p q b) s = .next (answered s p 0x10 q .badField [])) ∧
        ∀ x, promptOf p sd b = some x →
          ((s.tagged p b.tag).isSome = true → b.replace = false →
            exec (.postPrompt p q b) s = .next (answered s p 0x10 q .tagLive [])) ∧
          (((s.tagged p b.tag).isSome = true → b.replace = true) →
            (s.quota p ≤ s.liveCount p - (if (s.tagged p b.tag).isSome = true then 1 else 0) →
              exec (.postPrompt p q b) s = .next (answered s p 0x10 q .quota [])) ∧
            (s.liveCount p < s.quota p → s.tagged p b.tag = none → lowestFree s.ptb.prompts = none →
              exec (.postPrompt p q b) s = .next (answered s p 0x10 q .tableFull []))))

/-- The content of a post: what R3 to R7 ask of it, and the record of R1 that it makes, with the span's elements, the page's lines and
masks, and every other field as the post carries it or as R1 starts it. -/
def Obligations.PostContent : Prop :=
  ∀ (p : Port) (sd : Side) (b : PromptBody),
    ((promptOf p sd b).isSome = true ↔
      (b.cls.toNat ≤ 5 ∧ b.urgency.toNat ≤ 3 ∧ b.span.length ≤ 8) ∧
      (∀ e ∈ b.span, (e.kind = 0x01 ∧ e.param.toNat ≤ 223) ∨ (e.kind = 0x02 ∧ e.param.toNat ≤ 999) ∨ e.kind = 0x03 ∨
        (e.kind = 0x04 ∧ 100 ≤ e.param.toNat ∧ e.param.toNat ≤ 2000 ∧ e.param.toNat % 100 = 0)) ∧
      (∀ g, b.page = some g → (1 ≤ g.lines.length ∧ g.lines.length ≤ 2) ∧ ∀ l ∈ g.lines, (1 ≤ l.length ∧ l.length ≤ 3) ∧
        ∀ e ∈ l, (e.kind = 0x11 ∧ e.param.toNat ≤ 223) ∨ (e.kind = 0x12 ∧ e.param.toNat ≤ 999) ∨ e.kind = 0x13 ∨ e.kind = 0x14) ∧
      (∀ t, b.tone = some t → t.toNat ≤ 13) ∧ (∀ e, b.expiry = some e → 1 ≤ e.toNat ∧ e.toNat ≤ 3600) ∧
      (∀ c i, b.repeats = some (c, i) → c.toNat ≤ 7 ∧ 2 ≤ i.toNat ∧ i.toNat ≤ 60) ∧
      (∀ d, b.dwell = some d → 1 ≤ d.toNat ∧ d.toNat ≤ 60 ∧ b.cls = 4) ∧
      (b.cls = 4 ∨ b.cls = 5 → b.responseSet = 0) ∧ (b.cls = 2 ∨ b.cls = 3 → b.responseSet ≠ 0) ∧
      ¬ (b.span = [] ∧ b.page = none ∧ b.tone = none)) ∧
    ∀ x, promptOf p sd b = some x →
      x.owner = p ∧ x.tag = b.tag ∧ classCode x.cls = b.cls ∧ x.urgency = b.urgency.toNat ∧ x.side = sd ∧
      x.span.length = b.span.length ∧ x.page.isSome = b.page.isSome ∧ x.tone = b.tone.map (·.toNat) ∧
      (∀ e y, (e, y) ∈ b.span.zip x.span → spanReads e y) ∧
      (∀ g, b.page = some g → ∃ r, x.page = some r ∧ r.icons = g.icons ∧ r.blink = g.blink ∧ r.lines.length = g.lines.length ∧
        ∀ l m, (l, m) ∈ g.lines.zip r.lines → m.length = l.length ∧ ∀ e y, (e, y) ∈ l.zip m → lineReads e y) ∧
      x.responseSet = b.responseSet.setWidth 5 ∧ x.holdToAnswer = b.holdToAnswer ∧ x.wake = b.wake ∧
      x.expiry = b.expiry.map (·.toNat) ∧ x.expiryLeft = b.expiry.map (fun e => 100 * e.toNat) ∧
      (b.repeats = none → x.repeatCount = 0 ∧ x.repeatInterval = 10) ∧
      (∀ c i, b.repeats = some (c, i) → x.repeatCount = c.toNat ∧ x.repeatInterval = i.toNat) ∧ x.repeatsLeft = x.repeatCount ∧
      (b.dwell = none → x.dwell = 5) ∧ (∀ d, b.dwell = some d → x.dwell = d.toNat) ∧ x.dwellLeft = 100 * x.dwell ∧
      x.state = .queued ∧ x.elemIndex = 0 ∧ x.latch = none ∧ x.spokenOnce = false ∧ x.repeatTimer = none ∧ x.hasSpoken = false ∧
      x.repeatDue = false ∧ x.repeatStarted = false

/-- POST PROMPT, accepted (R10 to R14): in the lowest free slot, with the posting counter as its number, at the tail of the posting
order; a replaced prompt has left with CLOSED (REPLACED); a prompt that wakes finds its side ACTIVE. Other prompts keep their
records, order and slots. Then the side's region is chosen again (R35) and the channel settles: the old prompt of a replacement is closed
first but for the choice (log 14), the side woken, and a prompt without a page record granted where it is eligible (R33), before the
choice (log 55, the model's choice); the channel that the old prompt frees is granted after the choice (log 16). The fallback page's
letters and texts are those of logs 11 and 48. Where the
old prompt lay on the other side, that side's region is chosen last (log 49, the model's choice). An end of one of the old prompt's
timers that falls together with the replacement does not come (R11; log 36). The exact next state is said where the slots of the live
prompts are distinct (R12). -/
def Obligations.PostAccepted : Prop :=
  ∀ (s : State) (p : Port) (q : Byte) (b : PromptBody) (sd : Side) (x : Prompt) (slot : Nat), ready s p 0x10 →
    wellSized (.postPrompt b) = true → sideOf b.side = some sd → roleReachesSide (s.link p).role sd = true →
    promptOf p sd b = some x → ((s.tagged p b.tag).isSome = true → b.replace = true) →
    s.liveCount p - (if (s.tagged p b.tag).isSome = true then 1 else 0) < s.quota p →
    lowestFree (s.ptb.prompts.filter fun y => decide (∀ o ∈ s.tagged p b.tag, y.slot ≠ o.slot)) = some slot →
    ∃ t, exec (.postPrompt p q b) s = .next t ∧
      postedPrompts t = (s.ptb.prompts.filter fun y => decide (∀ o ∈ s.tagged p b.tag, y.slot ≠ o.slot)).map Prompt.posted ++
        [{ x.posted with slot := slot, seq := s.ptb.counter }] ∧
      t.ptb.counter = s.ptb.counter + 1 ∧
      t.link p = answeredLink (s.link p) 0x10 q .ok (byteOf slot :: bytesOf s.ptb.counter) ∧
      (∀ p', p' ≠ p → t.link p' = s.link p') ∧
      (∀ o, s.tagged p b.tag = some o →
        queueAfter (noticesOf s p) ⟨.closed, some o.side, some o.tag, 6, 0, false⟩ <+: noticesOf t p) ∧
      (∀ p', noticesOf s p' <+: noticesOf t p') ∧
      (x.cls = .safety ∨ x.cls = .fault ∨ x.cls = .action ∨ x.cls = .confirm ∨ x.wake = true →
        (t.records sd).session.active = true) ∧
      (∀ sd', (t.records sd').hold = (s.records sd').hold ∧ (t.records sd').cycle = (s.records sd').cycle) ∧
      t.records (otherSide sd) = s.records (otherSide sd) ∧
      t.cfg = s.cfg ∧ t.ksc = s.ksc ∧ t.psc.memory = s.psc.memory ∧ t.psc.directory = s.psc.directory ∧
      t.tgn.patterns = s.tgn.patterns ∧ t.stu.flag = s.stu.flag ∧ t.stu.result = s.stu.result ∧
      lateAfter s t (s.tagged p b.tag).toList ∧
      ∀ u v w : State, slotsDistinct s →
        u = promptPlaced (match s.tagged p b.tag with
          | some o => promptLeft (receiving s p .hunt) o 6 0
          | none => receiving s p .hunt) x slot →
        v = (if (x.cls = .safety ∨ x.cls = .fault ∨ x.cls = .action ∨ x.cls = .confirm ∨ x.wake = true) ∧
          (u.records sd).session.active = false then sessionStarted u sd else u) →
        (x.page = none ∧ mayPresent v x → w = v.grantPrompt slot) → (¬(x.page = none ∧ mayPresent v x) → w = v) →
        t = repliedWork (match s.tagged p b.tag with
          | some o => if o.side = sd then w.chooseRegion sd else (w.chooseRegion sd).chooseRegion o.side
          | none => w.chooseRegion sd).settle p 0x10 q .ok (byteOf slot :: bytesOf s.ptb.counter)

/-- WITHDRAW PROMPT, PROMPT_EXPIRY and DWELL_EXPIRY close a prompt with WITHDRAWN, EXPIRED and DONE: it leaves the table, CLOSED is
offered to its owner, and the rest of the table stays (R18, R20, R22, R24); its region is chosen again (R35) and the channel settles (log
16). The dwell timer runs but while the prompt's replay holds the channel, so also while a preempted replay waits (log 37, the model's
choice). An unknown tag answers NO_SUCH_TAG, and a timer that does not run or is frozen closes nothing (log 5), nor does an expiry whose
prompt left the slot in the same moment, nor such a dwell (R11, R24; log 36). A withdrawal finds the slots of the live prompts distinct (R12). -/
def Obligations.PromptsClose : Prop :=
  (∀ (s : State) (p : Port) (q tag : Byte), ready s p 0x11 →
    (s.tagged p tag = none → exec (.withdrawPrompt p q tag) s = .next (answered s p 0x11 q .noSuchTag [])) ∧
    ∀ x, s.tagged p tag = some x → slotsDistinct s →
      ∃ t, exec (.withdrawPrompt p q tag) s = .next t ∧ Presents (answered (promptGone s x 5 0) p 0x11 q .ok []) t ∧
        t = repliedWork (promptClosed (receiving s p .hunt) x 5 0) p 0x11 q .ok []) ∧
  (∀ (s : State) (slot : Nat) (x : Prompt), s.prompt slot = some x →
    (slot ∉ s.late.expiries → x.expiryLeft = none ∨ s.stu.flag = true → exec (.promptExpiry slot) s = .next s) ∧
    (slot ∉ s.late.expiries → x.expiryLeft ≠ none → s.stu.flag = false →
      ∃ t, exec (.promptExpiry slot) s = .next t ∧ Presents (withoutExpiry (promptGone s x 4 0) slot) t ∧
        t = withoutExpiry (promptClosed s x 4 0) slot) ∧
    (slot ∉ s.late.dwells → x.state = .granted .dwelling → s.sch.turn ≠ some (.prompt slot .replay) →
      ∃ t, exec (.dwellExpiry slot) s = .next t ∧ Presents (withoutDwell (promptGone s x 3 0) slot) t ∧
        t = withoutDwell (promptClosed s x 3 0) slot) ∧
    (slot ∉ s.late.dwells → x.state ≠ .granted .dwelling ∨ s.sch.turn = some (.prompt slot .replay) →
      exec (.dwellExpiry slot) s = .next s)) ∧
  (∀ (s : State) (slot : Nat),
    (slot ∈ s.late.expiries → exec (.promptExpiry slot) s = .next (withoutExpiry s slot)) ∧
    (slot ∈ s.late.dwells → exec (.dwellExpiry slot) s = .next (withoutDwell s slot))) ∧
  ∀ (s : State) (slot : Nat), s.prompt slot = none →
    (slot ∉ s.late.expiries → exec (.promptExpiry slot) s = .next s) ∧ (slot ∉ s.late.dwells → exec (.dwellExpiry slot) s = .next s)

/-- REPEAT_DUE: the repeat falls due and its timer stays stopped (R17); then the channel settles, since the prompt is now a candidate for
it (R42). A repeat timer that does not run changes nothing (log 5), and a repeat whose prompt left the slot in the same moment, or whose
timer a replay stopped in it, does not fall due (R24, R48; log 36). -/
def Obligations.RepeatFallsDue : Prop :=
  (∀ (s : State) (slot : Nat), slot ∈ s.late.repeats → exec (.repeatDue slot) s =
    .next { s with late := { s.late with repeats := s.late.repeats.filter fun n => decide (n ≠ slot) } }) ∧
  (∀ (s : State) (slot : Nat), slot ∉ s.late.repeats → s.prompt slot = none → exec (.repeatDue slot) s = .next s) ∧
  ∀ (s : State) (slot : Nat) (x : Prompt), slot ∉ s.late.repeats → s.prompt slot = some x →
    (x.repeatTimer = none → exec (.repeatDue slot) s = .next s) ∧
    (x.repeatTimer ≠ none → ∃ t, exec (.repeatDue slot) s = .next t ∧
      t = (s.onPrompt slot fun y => { y with repeatTimer := none, repeatDue := true }).settle ∧
      Presents s t ∧ t.tgn = s.tgn ∧ t.dsp = s.dsp ∧
      ((s.onPrompt slot fun y => { y with repeatTimer := none, repeatDue := true }).speechStep = none →
        t = s.onPrompt slot fun y => { y with repeatTimer := none, repeatDue := true }))

/-- QUERY PROMPT and LIST PROMPTS (R26, R27, R187): what they report, and that they change no prompt; the bytes of an absent latch or
expiry and of an empty summary are free (log 8), the codes of an empty summary among those listed (R174), and the flag bits that R174
leaves undefined clear (log 12). -/
def Obligations.PromptsRead : Prop :=
  (∀ (s : State) (p : Port) (q tag : Byte), ready s p 0x12 →
    (s.tagged p tag = none → exec (.queryPrompt p q tag) s = .next (answered s p 0x12 q .noSuchTag [])) ∧
    ∀ x, s.tagged p tag = some x → ∃ a b f, a.length = 2 ∧ b.length = 2 ∧
      (∀ m, x.latch = some m → a = wordBytes m) ∧ (∀ n, x.expiryLeft = some n → b = wordBytes ((n + 99) / 100)) ∧
      exec (.queryPrompt p q tag) s = .next { (answered s p 0x12 q .ok ([stateCode x.state, byteOf x.slot] ++ bytesOf x.seq ++
        [flagByte (decide ((s.schedule x.side).owner = some x.slot)) x.spokenOnce x.latch.isSome x.expiryLeft.isSome,
          if x.elemIndex < x.span.length then byteOf x.elemIndex else 8] ++ a ++ [byteOf x.repeatsLeft] ++ b)) with free := f }) ∧
  ∀ (s : State) (p : Port) (q slot : Byte), ready s p 0x13 →
    (47 < slot.toNat → exec (.listPrompts p q slot) s = .next (answered s p 0x13 q .badField [])) ∧
    (slot.toNat ≤ 47 → ∃ a b f, a.length = 6 ∧ b.length = 6 ∧
      (∀ x, s.prompt slot.toNat = some x →
        a = [1, portCode (some x.owner), x.tag, classCode x.cls, sideCode x.side, stateCode x.state]) ∧
      (s.prompt slot.toNat = none → emptyMark a) ∧
      (∀ x, s.prompt ((slot.toNat + 1) % 48) = some x →
        b = [1, portCode (some x.owner), x.tag, classCode x.cls, sideCode x.side, stateCode x.state]) ∧
      (s.prompt ((slot.toNat + 1) % 48) = none → emptyMark b) ∧
      exec (.listPrompts p q slot) s = .next { (answered s p 0x13 q .ok (a ++ b)) with free := f })

/-! ### Sides -/

/-- The side checks of R55 shared by the requests of a side: a side field that names neither side is BAD_FIELD, and a drum that names
the other side NOT_PERMITTED; nothing else changes. -/
def Obligations.SideChecksRefuse : Prop :=
  ∀ (s : State) (c : Instr) (p : Port) (q b : Byte) (r : Request), requestOf c = some (p, q, r) → ready s p (requestCode r) →
    (r = .startSession b ∨ r = .endSession b ∨ (∃ l, r = .setLanguage b l) ∨ (∃ m, r = .setSpeechMode b m) ∨ r = .claimSide b ∨
      r = .releaseSide b ∨ ∃ pr ph n run, r = .setCycle b pr ph n run ∧ pr.toNat < 8) →
    (sideOf b = none → exec c s = .next (answered s p (requestCode r) q .badField [])) ∧
    ∀ sd, sideOf b = some sd →
      ((s.link p).role = some .lowerDrum ∧ sd = .upper ∨ (s.link p).role = some .upperDrum ∧ sd = .lower →
        exec c s = .next (answered s p (requestCode r) q .notPermitted []))

/-- START SESSION (R55, R56): on an ACTIVE side the idle timer starts again and no session begins; on an ASLEEP side a session begins
(R54), the panel is woken and a panel that was OFF has both regions rendered, whatever they show (R152, R143; log 48 for the texts of a
fallback page, log 11 for its letters). The response tells which, and the session record. An expiry that falls together with the restart is overtaken (log 36). -/
def Obligations.SessionStarts : Prop :=
  ∀ (s : State) (p : Port) (q b : Byte) (sd : Side), ready s p 0x20 → sideOf b = some sd →
    roleReachesSide (s.link p).role sd = true →
    ((s.records sd).session.active = true → exec (.startSession p q b) s = .next (answered (idleRestarted s sd) p 0x20 q .ok
      [0, 1, fourCode (s.records sd).session.language, modeCode (s.records sd).session.mode,
        fourCode (s.records sd).session.volume])) ∧
    ((s.records sd).session.active = false → exec (.startSession p q b) s = .next (answered (sessionStarted s sd) p 0x20 q .ok
      [1, 1, fourCode (s.records sd).session.language, modeCode (s.records sd).session.mode,
        fourCode (s.records sd).session.volume]))

/-- END SESSION and IDLE_EXPIRY end an ACTIVE side's session (R57, R58, R56): ASLEEP, house values, the side's ACTION and CONFIRM prompts
gone, each with CLOSED (UNANSWERED) to its owner in posting order (R23), and then SESSION (ended) with its cause to the ports whose mask
enables it. END SESSION on an ASLEEP side is refused; an idle timer that is frozen or stopped ends nothing (log 5), nor does one that a
restart or END SESSION of the same moment has overtaken (log 36). Each closure chooses the side's region again (R24, R35) and is settled before the next,
with the side's old language, mode and volume (log 42, the model's choice); nothing after the closures changes an owner. A prompt that the
region shows is rendered in the house language (R143; logs 11 and 48 where a closure leaves the fallback page), house mode OFF clears a
pending replay (R41; log 21), and where R40 or R41
arises for the speaker its span counts as delivered at the end of the element, which is noted (R46; log 22); then the channel settles (log
16). An end of a
closed prompt's expiry timer in the same moment does not come (log 36). The slots of the
live prompts are distinct (R12). -/
def Obligations.SessionEnds : Prop :=
  (∀ (s : State) (p : Port) (q b : Byte) (sd : Side), ready s p 0x21 → sideOf b = some sd →
    roleReachesSide (s.link p).role sd = true →
    ((s.records sd).session.active = false → exec (.endSession p q b) s = .next (answered s p 0x21 q .sideAsleep [])) ∧
    ((s.records sd).session.active = true → slotsDistinct s → ∃ t, exec (.endSession p q b) s = .next t ∧
      Presents (answered (sessionOver (idleOvertaken s sd) sd) p 0x21 q .ok []) t ∧ sessionNoticed s t sd 2 ∧
      ownersSame (sessionClosed (receiving s p .hunt) sd) t ∧
      ((∀ x ∈ s.ptb.prompts, ¬(x.side = sd ∧ (x.cls = .action ∨ x.cls = .confirm))) →
        Presents (answered ((sessionOver (idleOvertaken s sd) sd).offerMasked ⟨.session, some sd, none, 2, 2, false⟩) p 0x21 q .ok
          []) t) ∧
      t = repliedWork (sessionLeft (idleOvertaken (receiving s p .hunt) sd) sd 2) p 0x21 q .ok [])) ∧
  ∀ (s : State) (sd : Side),
    ((s.overtaken.get sd).idle = true → exec (.idleExpiry sd) s = .next (s.onOvertaken sd fun o => { o with idle := false })) ∧
    ((s.overtaken.get sd).idle = false → (s.records sd).session.active = false ∨ s.stu.flag = true →
      exec (.idleExpiry sd) s = .next s) ∧
    ((s.records sd).session.active = true → s.stu.flag = false → (s.overtaken.get sd).idle = false → slotsDistinct s →
      ∃ t, exec (.idleExpiry sd) s = .next t ∧ Presents (sessionOver s sd) t ∧ sessionNoticed s t sd 1 ∧
      ownersSame (sessionClosed s sd) t ∧
      ((∀ x ∈ s.ptb.prompts, ¬(x.side = sd ∧ (x.cls = .action ∨ x.cls = .confirm))) →
        Presents ((sessionOver s sd).offerMasked ⟨.session, some sd, none, 2, 1, false⟩) t) ∧
      t = sessionLeft s sd 1)

/-- SET LANGUAGE and SET SPEECH MODE (R59, R61): the value's own check, SIDE_ASLEEP, and the session's field set; the present value
changes nothing further. After a changed language a prompt that the side's region shows is rendered again from its page record in the
new language, and a store read of the render it replaces is marked to be discarded (R59, R143). After a changed mode the channel settles;
OFF first lets the side's speaking span count as delivered and clears its replay (R46, R61; log 21). -/
def Obligations.LanguageAndModeSet : Prop :=
  ∀ (s : State) (p : Port) (q b v : Byte) (sd : Side), sideOf b = some sd → roleReachesSide (s.link p).role sd = true →
    (ready s p 0x22 →
      (3 < v.toNat → exec (.setLanguage p q b v) s = .next (answered s p 0x22 q .badField [])) ∧
      ∀ l, fourOf v = some l →
        ((s.records sd).session.active = false → exec (.setLanguage p q b v) s = .next (answered s p 0x22 q .sideAsleep [])) ∧
        ((s.records sd).session.active = true → (s.records sd).session.language = l →
          exec (.setLanguage p q b v) s = .next (answered s p 0x22 q .ok [])) ∧
        ((s.records sd).session.active = true → (s.records sd).session.language ≠ l →
          ∃ t, exec (.setLanguage p q b v) s = .next t ∧
            Presents (answered (s.onSession sd fun x => { x with language := l }) p 0x22 q .ok []) t ∧
            t = answered (languageTaken (s.onSession sd fun x => { x with language := l }) sd (s.records sd).session.language) p 0x22 q
              .ok [] ∧
            t.ptb = s.ptb ∧ t.nq = s.nq ∧ t.spe = s.spe ∧ ((s.region sd).showsPrompt = false → t.dsp = s.dsp) ∧
            t.region (otherSide sd) = s.region (otherSide sd) ∧
            ∀ n g, (s.region sd).content = .prompt n g →
              t.region sd = rendered s sd l [] (pageElems g) (s.region sd) ∧
              ∀ page, s.psc.transfer = some (.display sd page false) → t.psc.transfer = some (.display sd page true))) ∧
    (ready s p 0x23 →
      (2 < v.toNat → exec (.setSpeechMode p q b v) s = .next (answered s p 0x23 q .badField [])) ∧
      ∀ m, speechModeOf v = some m →
        ((s.records sd).session.active = false →
          exec (.setSpeechMode p q b v) s = .next (answered s p 0x23 q .sideAsleep [])) ∧
        ((s.records sd).session.active = true → (s.records sd).session.mode = m →
          exec (.setSpeechMode p q b v) s = .next (answered s p 0x23 q .ok [])) ∧
        ((s.records sd).session.active = true → (s.records sd).session.mode ≠ m →
          ∃ t, exec (.setSpeechMode p q b v) s = .next t ∧ t.dsp = s.dsp ∧ t.tgn = s.tgn ∧
            t = repliedWork (modeSet (receiving s p .hunt) sd m) p 0x23 q .ok [] ∧
            Presents (answered (s.onSession sd fun x => { x with mode := m }) p 0x23 q .ok []) t))

/-- Speech mode OFF, by SET SPEECH MODE and by the SPEECH key, which steps ASSIST to OFF (R61, R87), silences a side at once: afterwards no
prompt of the side holds the channel and no replay is pending there, and the rest of a speaking span counts as delivered
(R46); the repeat timer that a replay stopped starts again (log 21). The slots of the live prompts are distinct (R12). -/
def Obligations.ModeOffSilencesSide : Prop :=
  (∀ (s : State) (sd : Side), slotsDistinct s → (s.records sd).session.mode ≠ .off →
    (∀ x k, (s.putMode sd .off).speaker = some (x, k) → x.side ≠ sd) ∧ ((s.putMode sd .off).schedule sd).replay = none ∧
    s.putMode sd .off = modeSet s sd .off ∧
    ∀ x, s.sch.turn = some (.prompt x.slot .first) → s.prompt x.slot = some x → x.side = sd → x.state = .granted .presenting →
      (s.schedule sd).replay = none → s.putMode sd .off =
        (channelLastOwned (turnOver ((s.onSession sd fun y => { y with mode := .off }).onPrompt x.slot fun y =>
          { deliveredFirst y (stateDelivered x) with state := .granted (stateDelivered x) }) .idle) (some x.owner)).settle) ∧
  (∀ (s : State) (p : Port) (q b v : Byte) (sd : Side), ready s p 0x23 → sideOf b = some sd → roleReachesSide (s.link p).role sd = true →
    slotsDistinct s → speechModeOf v = some .off → (s.records sd).session.active = true → (s.records sd).session.mode ≠ .off →
    ∃ t, exec (.setSpeechMode p q b v) s = .next t ∧ t = repliedWork (modeSet (receiving s p .hunt) sd .off) p 0x23 q .ok [] ∧
      (t.records sd).session.mode = .off ∧ (∀ x k, t.speaker = some (x, k) → x.side ≠ sd) ∧ (t.schedule sd).replay = none) ∧
  ∀ (s u : State) (c : Instr) (sd : Side) (hold : Bool), makesKeyEvent s c sd .speech hold u → keysAccepted s → slotsDistinct s →
    (s.records sd).session.mode = .assist →
    ∃ t, exec c s = .next t ∧ t = modeSet (keyToned (eventPassed u sd) 14 sd .click) sd .off ∧
      (t.records sd).session.mode = .off ∧ (∀ x k, t.speaker = some (x, k) → x.side ≠ sd) ∧ (t.schedule sd).replay = none

/-- CLAIM SIDE is a test-and-set that reports the holder found (R64): a free side is taken with a fresh lapse timer and its prompts are
reviewed (R32, R33, R35), the holder's own claim starts the timer again and overtakes a lapse of the same moment (R66; log 36), and
another port's hold stays. And what choosing a side's region again does, whatever event asks for it (R29 to R31, R34 to R36), with the
grant, its tone and the displacement that it brings (R15, R19; log 21 for a replay's repeat timer), and what the review of prompts
without a page record does before it (R33; log 15), with the speaker's turn lost where it is displaced (R46; log 22); the channel settles
after the choice (log 16). A region left to the fallback page has its element texts cleared (log 48, the model's
choice), and the page's letters are presumed to be ASCII (log 11). -/
def Obligations.SideClaimed : Prop :=
  (∀ (s : State) (p : Port) (q b : Byte) (sd : Side), ready s p 0x24 → sideOf b = some sd →
    roleReachesSide (s.link p).role sd = true →
    ((s.records sd).hold.holder = none → ∃ t, exec (.claimSide p q b) s = .next t ∧
      Presents (answered (s.onHold sd fun _ => ⟨some p, some ⟨0, s.cfg.holdLapse⟩⟩) p 0x24 q .ok [0]) t ∧
      t = repliedWork ((((receiving s p .hunt).onHold sd fun _ => ⟨some p, some ⟨0, s.cfg.holdLapse⟩⟩).reviewPageless sd).chooseRegion
        sd).settle p 0x24 q .ok [0] ∧
      (regionsOwned s → sideReviewed (s.onHold sd fun _ => ⟨some p, some ⟨0, s.cfg.holdLapse⟩⟩) t sd)) ∧
    ((s.records sd).hold.holder = some p → exec (.claimSide p q b) s = .next
      (answered (holdRenewed s sd p) p 0x24 q .ok [portCode (some p)])) ∧
    ∀ h, (s.records sd).hold.holder = some h → h ≠ p →
      exec (.claimSide p q b) s = .next (answered s p 0x24 q .ok [portCode (some h)])) ∧
  (∀ (s : State) (sd : Side), regionsOwned s → (∃ last, RegionChosen s (s.chooseRegion sd) sd last) ∧
    RegionHanded s (s.chooseRegion sd) sd) ∧
  (∀ (s : State) (sd : Side), slotsDistinct s → pagelessReviewed s (s.reviewPageless sd) sd) ∧
  ∀ (s : State) (y : Prompt), slotsDistinct s → s.prompt y.slot = some y →
    (entersPresenting y → s.grantPrompt y.slot = (toneSounded s y).onPrompt y.slot fun _ => promptGranted y) ∧
    (¬ entersPresenting y → s.grantPrompt y.slot = s.onPrompt y.slot fun _ => promptGranted y)

/-- RELEASE SIDE and HOLD_LAPSE free a held side and its prompts are reviewed (R65, R66, R32, R33, R35): the holder's release is answered OK,
any other NOT_HOLDER; a lapse offers HOLD_LAPSED to the former holder; a lapse timer that is frozen, or of a side without a holder (log
5), frees nothing, nor does one that the holder's claim, release or client reset of the same moment has overtaken (log 36). Prompts without a page record are
reviewed before the region is chosen (log 15), and the channel settles after it (log 16): the model's choices. A region left to the fallback page has
its element texts cleared (log 48, the model's choice), and the page's letters are presumed to be ASCII (log 11). -/
def Obligations.SideFreed : Prop :=
  (∀ (s : State) (p : Port) (q b : Byte) (sd : Side), ready s p 0x25 → sideOf b = some sd →
    roleReachesSide (s.link p).role sd = true →
    ((s.records sd).hold.holder ≠ some p → exec (.releaseSide p q b) s = .next (answered s p 0x25 q .notHolder [])) ∧
    ((s.records sd).hold.holder = some p → ∃ t, exec (.releaseSide p q b) s = .next t ∧
      Presents (answered (holdReleased s sd) p 0x25 q .ok []) t ∧
      t = repliedWork (((holdReleased (receiving s p .hunt) sd).reviewPageless sd).chooseRegion sd).settle p 0x25 q .ok [] ∧
      (regionsOwned s → sideReviewed (s.onHold sd fun _ => ⟨none, none⟩) t sd))) ∧
  ∀ (s : State) (sd : Side),
    ((s.overtaken.get sd).lapse = true → exec (.holdLapse sd) s = .next (s.onOvertaken sd fun o => { o with lapse := false })) ∧
    ((s.overtaken.get sd).lapse = false → (s.records sd).hold.holder = none ∨ s.stu.flag = true →
      exec (.holdLapse sd) s = .next s) ∧
    ∀ h, (s.records sd).hold.holder = some h → s.stu.flag = false → (s.overtaken.get sd).lapse = false →
      ∃ t, exec (.holdLapse sd) s = .next t ∧
      Presents ((s.onHold sd fun _ => ⟨none, none⟩).offer h ⟨.holdLapsed, some sd, none, 0, 0, false⟩) t ∧
      t = ((((s.onHold sd fun _ => ⟨none, none⟩).offer h ⟨.holdLapsed, some sd, none, 0, 0, false⟩).reviewPageless sd).chooseRegion
        sd).settle ∧
      (regionsOwned s → sideReviewed (s.onHold sd fun _ => ⟨none, none⟩) t sd)

/-- SET CYCLE (R69, R71): a field out of range refuses the whole; otherwise the fields present are written, RUNNING at 0 stops, the
second starts afresh where a countdown was written or run began, PHASE is offered where the phase changed, and the lines that
show the countdown follow it (R146). A fall that falls together with a write that restarts or stops the second is overtaken (R70; log
36). -/
def Obligations.CycleWritten : Prop :=
  ∀ (s : State) (p : Port) (q b presence phase run : Byte) (n : Word16) (sd : Side), ready s p 0x26 → presence.toNat < 8 →
    sideOf b = some sd → roleReachesSide (s.link p).role sd = true →
    ((presence.getLsbD 0 = true ∧ 8 < phase.toNat) ∨ (presence.getLsbD 1 = true ∧ 35999 < n.toNat) ∨
        (presence.getLsbD 2 = true ∧ 1 < run.toNat) →
      exec (.setCycle p q b presence phase n run) s = .next (answered s p 0x26 q .badField [])) ∧
    ∀ ph r, phaseOf (if presence.getLsbD 0 then phase else 0) = some ph →
      (presence.getLsbD 1 = true → n.toNat ≤ 35999) → boolOf (if presence.getLsbD 2 then run else 0) = some r →
      ∃ t c, exec (.setCycle p q b presence phase n run) s = .next t ∧
        c = cycleAfter (s.records sd).cycle (if presence.getLsbD 0 then some ph else none)
          (if presence.getLsbD 1 then some n.toNat else none) (if presence.getLsbD 2 then some r else none) ∧
        t.nq = (phaseOffered s sd (s.records sd).cycle.phase c.phase).nq ∧
        Presents (answered (cycleRewritten (phaseOffered s sd (s.records sd).cycle.phase c.phase) sd c) p 0x26 q .ok
          (phaseCode c.phase :: wordBytes c.countdown ++ [boolCode c.running])) t ∧
        changesOnly [.links, .notices, .sides, .display, .overtaken] s t ∧ t.region (otherSide sd) = s.region (otherSide sd) ∧
        (c.countdown ≠ (s.records sd).cycle.countdown → linesFollow s t sd c.countdown) ∧
        (c.countdown = (s.records sd).cycle.countdown → t.dsp = s.dsp)

/-- READ CYCLE is open to every bound port, for either side: a side field naming neither side is BAD_FIELD; otherwise the response carries
the phase, the countdown and run, and nothing else changes (R73). -/
def Obligations.CycleRead : Prop :=
  ∀ (s : State) (p : Port) (q b : Byte),
    ((s.link p).role ≠ none → s.codeCheck p 0x27 = none) ∧
    (ready s p 0x27 →
      (sideOf b = none → exec (.readCycle p q b) s = .next (answered s p 0x27 q .badField [])) ∧
      ∀ sd, sideOf b = some sd → exec (.readCycle p q b) s = .next (answered s p 0x27 q .ok
        (phaseCode (s.records sd).cycle.phase :: wordBytes (s.records sd).cycle.countdown ++
          [boolCode (s.records sd).cycle.running])))

/-- COUNTDOWN_FALL and FALLBACK_DUE, the timers of a side's cycle record and drum (R70, R37, R38): a RUNNING countdown falls by one,
stopping at 0 with COUNTDOWN_ZERO, unless a SET CYCLE or the drum's client reset of the same moment has overtaken the fall (R70, R74; log
36); a running unbound timer stops at 5 s and the fallback page shows where the region has no owner, OUT OF SERVICE (R147) in codes
presumed to be ASCII (log 11), unless a binding of the same moment has overtaken that (log 36); a timer that does not run changes nothing
(log 5). -/
def Obligations.SideTimersFall : Prop :=
  ∀ (s : State) (sd : Side),
    ((s.overtaken.get sd).second = true →
      exec (.countdownFall sd) s = .next (s.onOvertaken sd fun o => { o with second := false })) ∧
    ((s.overtaken.get sd).second = false → (s.records sd).cycle.running = false → exec (.countdownFall sd) s = .next s) ∧
    ((s.records sd).cycle.running = true → (s.records sd).cycle.countdown ≠ 0 → (s.overtaken.get sd).second = false →
      ∃ t, exec (.countdownFall sd) s = .next t ∧
      changesOnly [.notices, .sides, .display] s t ∧
      t.scu = (s.onCycle sd fun c =>
        ⟨c.phase, c.countdown - 1, decide (c.countdown ≠ 1), if c.countdown = 1 then none else some 0⟩).scu ∧
      t.nq = (if (s.records sd).cycle.countdown = 1 then s.offerMasked ⟨.countdownZero, some sd, none, 0, 0, false⟩ else s).nq ∧
      Presents { s with scu := t.scu, nq := t.nq } t ∧ linesFollow s t sd ((s.records sd).cycle.countdown - 1) ∧
      t.region (otherSide sd) = s.region (otherSide sd)) ∧
    ((s.overtaken.get sd).unbound = true →
      exec (.fallbackDue sd) s = .next (s.onOvertaken sd fun o => { o with unbound := false })) ∧
    ((s.overtaken.get sd).unbound = false → (s.schedule sd).unbound.running = false → exec (.fallbackDue sd) s = .next s) ∧
    ((s.overtaken.get sd).unbound = false → (s.schedule sd).unbound.running = true →
      ∃ t, exec (.fallbackDue sd) s = .next t ∧ Presents s t ∧
      t.schedule sd = { s.schedule sd with unbound := ⟨500, false⟩, fallbackDue := true } ∧
      t.schedule (otherSide sd) = s.schedule (otherSide sd) ∧ t.nq = s.nq ∧ t.ptb = s.ptb ∧ t.spe = s.spe ∧ t.tgn = s.tgn ∧
      ((s.schedule sd).owner ≠ none → t.dsp = s.dsp) ∧
      ((s.schedule sd).owner = none → (t.region sd).content = .fallback ∧ (t.region sd).line1 = fallbackLine ∧
        (t.region sd).line2 = List.replicate 24 0x20 ∧ (t.region sd).icons = 0 ∧ (t.region sd).builtin = true))

/-! ### The phrase store -/

/-- WRITE PAGE (R103, R105, R106, R108): out of range is BAD_FIELD; a write behind a buffered one is held; a posted write is buffered and
answered at once; a direct write is refused by NO_WINDOW, NO_WRITE and PAGE_PINNED in that order, or waits for the bus. -/
def Obligations.PageWriteTaken : Prop :=
  ∀ (s : State) (p : Port) (q : Byte) (page offset : Word16) (length : Byte) (data : List Byte), ready s p 0x30 →
    data.length = length.toNat →
    (¬ pageInRange page offset length → exec (.writePage p q page offset length data) s = .next (answered s p 0x30 q .badField [])) ∧
    (pageInRange page offset length →
      ((s.portStore p).posted ≠ none → exec (.writePage p q page offset length data) s =
        .next (inWorkWith s p 0x30 q (.heldWrite page.toNat offset.toNat data))) ∧
      ((s.portStore p).posted = none →
        (s.hit p page.toNat = none →
          exec (.writePage p q page offset length data) s = .next (answered s p 0x30 q .noWindow [])) ∧
        ∀ w, s.hit p page.toNat = some w →
          (w.posted = true → exec (.writePage p q page offset length data) s = .next
            (answered (withPosted s p (some ⟨page.toNat, offset.toNat, data, .claiming, none⟩)) p 0x30 q .ok [])) ∧
          (w.posted = false → w.write = false →
            exec (.writePage p q page offset length data) s = .next (answered s p 0x30 q .noWrite [])) ∧
          (w.posted = false → w.write = true → s.spe.pin = some ((page.toNat + w.offset) % 512) →
            exec (.writePage p q page offset length data) s = .next (answered s p 0x30 q .pagePinned [])) ∧
          (w.posted = false → w.write = true → s.spe.pin ≠ some ((page.toNat + w.offset) % 512) →
            exec (.writePage p q page offset length data) s = .next
              (inWorkWith s p 0x30 q (.write ((page.toNat + w.offset) % 512) offset.toNat data)))))

/-- READ PAGE and READ POST ERROR (R103, R104, R108, R109): a read in range is refused by NO_WINDOW and NO_READ in that order, or waits
for the bus, and for the port's own buffered write if that is for the same page; the post error record is reported and
cleared, and the four bytes behind an empty one are free (log 8). -/
def Obligations.PageReadTaken : Prop :=
  (∀ (s : State) (p : Port) (q : Byte) (page offset : Word16) (length : Byte), ready s p 0x31 →
    (¬ pageInRange page offset length → exec (.readPage p q page offset length) s = .next (answered s p 0x31 q .badField [])) ∧
    (pageInRange page offset length →
      (s.hit p page.toNat = none → exec (.readPage p q page offset length) s = .next (answered s p 0x31 q .noWindow [])) ∧
      ∀ w, s.hit p page.toNat = some w →
        (w.read = false → exec (.readPage p q page offset length) s = .next (answered s p 0x31 q .noRead [])) ∧
        (w.read = true → ∃ waits, exec (.readPage p q page offset length) s = .next
            (inWorkWith s p 0x31 q (.read ((page.toNat + w.offset) % 512) offset.toNat length.toNat waits)) ∧
          (waits = true ↔ ∃ b v, (s.portStore p).posted = some b ∧ s.hit p b.page = some v ∧
            (b.page + v.offset) % 512 = (page.toNat + w.offset) % 512)))) ∧
  ∀ (s : State) (p : Port) (q : Byte), ready s p 0x32 →
    ((s.portStore p).error = none → ∃ a f, a.length = 4 ∧
      exec (.readPostError p q) s = .next { (answered s p 0x32 q .ok (0 :: a)) with free := f }) ∧
    ∀ e, (s.portStore p).error = some e → exec (.readPostError p q) s = .next
      (answered { s with psc := { s.psc with ports := s.psc.ports.update p fun x => { x with error := none } } } p 0x32 q .ok
        ((match e.cause with | .noWindow => 0x0F | .noWrite => 0x11) :: wordBytes e.page ++ wordBytes e.offset))

/-- The translation of a client page (R101), and SET WINDOW (R102), which writes one window of the target whole. -/
def Obligations.WindowsTranslate : Prop :=
  (∀ (s : State) (p : Port) (page : Nat), s.hit p page =
    (if (s.portStore p).windows.w0.enabled = true ∧ (s.portStore p).windows.w0.first ≤ page ∧
        page ≤ (s.portStore p).windows.w0.last then some (s.portStore p).windows.w0
    else if (s.portStore p).windows.w1.enabled = true ∧ (s.portStore p).windows.w1.first ≤ page ∧
        page ≤ (s.portStore p).windows.w1.last then some (s.portStore p).windows.w1
    else none)) ∧
  ∀ (s : State) (p : Port) (q target window flags : Byte) (first last offset : Word16), ready s p 0x33 → flags.toNat < 16 →
    (3 < target.toNat ∨ 1 < window.toNat ∨ 511 < first.toNat ∨ 511 < last.toNat ∨ 511 < offset.toNat ∨
        last.toNat < first.toNat →
      exec (.setWindow p q target window flags first last offset) s = .next (answered s p 0x33 q .badField [])) ∧
    ∀ t, target = portNumber t → window.toNat ≤ 1 → last.toNat ≤ 511 → offset.toNat ≤ 511 → first.toNat ≤ last.toNat →
      exec (.setWindow p q target window flags first last offset) s = .next
        (answered { s with psc := { s.psc with ports := s.psc.ports.update t fun x => { x with windows :=
          (if window = 0 then
            { x.windows with w0 := ⟨flags.getLsbD 0, first.toNat, last.toNat, offset.toNat, flags.getLsbD 1, flags.getLsbD 2, flags.getLsbD 3⟩ }
          else
            { x.windows with w1 := ⟨flags.getLsbD 0, first.toNat, last.toNat, offset.toNat, flags.getLsbD 1, flags.getLsbD 2, flags.getLsbD 3⟩ }) } } }
          p 0x33 q .ok [])

/-- SET PHRASE (R98): a phrase above 254, a language above 3, or with present set a first page above 511, is BAD_FIELD; otherwise the
entry is written whole, or becomes absent, and every other entry stays. -/
def Obligations.PhraseSet : Prop :=
  ∀ (s : State) (p : Port) (q n l flags blocks : Byte) (first : Word16), ready s p 0x34 → flags.toNat < 4 → storeCanonical s →
    (n = 0xFF ∨ 3 < l.toNat ∨ (flags.getLsbD 0 = true ∧ 511 < first.toNat) →
      exec (.setPhrase p q n l flags first blocks) s = .next (answered s p 0x34 q .badField [])) ∧
    ∀ lang, n ≠ 0xFF → fourOf l = some lang → (flags.getLsbD 0 = true → first.toNat ≤ 511) →
      ∃ t, exec (.setPhrase p q n l flags first blocks) s = .next t ∧
        t = answered { s with psc := { s.psc with directory := t.psc.directory } } p 0x34 q .ok [] ∧
        t.entry n.toNat lang =
          (if flags.getLsbD 0 = true then ⟨true, first.toNat, blocks.toNat, flags.getLsbD 1⟩ else ⟨false, 0, 0, false⟩) ∧
        ∀ n' l', ¬(n' = n.toNat ∧ l' = lang) → t.entry n' l' = s.entry n' l'

/-- READ PHRASE is open to every bound port: a language above 3 is BAD_FIELD; otherwise the response carries the entry exactly as it stands,
without the fallback on the house language, and nothing else changes (R99). The bytes lie in R174's order, the flag bits that it leaves
undefined clear (log 12, read from the spec by inference). -/
def Obligations.PhraseRead : Prop :=
  ∀ (s : State) (p : Port) (q n l : Byte),
    ((s.link p).role ≠ none → s.codeCheck p 0x35 = none) ∧
    (ready s p 0x35 →
      (3 < l.toNat → exec (.readPhrase p q n l) s = .next (answered s p 0x35 q .badField [])) ∧
      ∀ lang, fourOf l = some lang → exec (.readPhrase p q n l) s = .next (answered s p 0x35 q .ok
        (flagByte (s.entry n.toNat lang).present (s.entry n.toNat lang).text false false ::
          wordBytes (s.entry n.toNat lang).first ++ [byteOf (s.entry n.toNat lang).blocks])))

/-- BUS_GRANT (R107, R110, R144, R181): with a transfer under way or no claimant nothing happens; otherwise the highest claimant is served:
the Speech Engine, the Display Controller, the client port next in turn, the running test. A grant that fails a buffered write or puts
it in pin wait takes no transfer, and the arbiter grants again (R107), after the Speech Engine has tried a pin it waits for (log 45), so
often as one event can need (log 25). The Speech Engine claims the next slot of R126 (log 24 for a page without room); of two renders
the region not read last is served, LOWER first; the ports claim in circular order, each its buffered write first (R110); a test claims
the slot it reads next (R182, R183). -/
def Obligations.BusGranted : Prop :=
  (∀ s : State,
    (s.psc.transfer ≠ none ∨ s.nextFetch = none ∧ s.displayTurn = none ∧ s.clientTurn = none ∧ s.testClaim = none →
      exec .busGrant s = .next s) ∧
    (s.psc.transfer = none →
      (∀ n, s.nextFetch = some n → ∃ t, exec .busGrant s = .next t ∧ Presents (s.beginTransfer (.speech n.page n.slot n.res)) t) ∧
      (s.nextFetch = none →
        (∀ sd r, s.displayTurn = some sd → (s.region sd).render = some r → ∃ t, exec .busGrant s = .next t ∧
          Presents ({ s with dsp := { s.dsp with lastRead := some sd } }.beginTransfer (.display sd r.page false)) t) ∧
        (s.displayTurn = none →
          (∀ p page offset length, s.clientTurn = some (p, .read page offset length) → ∃ t, exec .busGrant s = .next t ∧
            Presents (servedWith s p (.read p page offset length)) t) ∧
          (∀ p page offset data, s.clientTurn = some (p, .write page offset data) → ∃ t, exec .busGrant s = .next t ∧
            Presents (servedWith s p (.write p page offset data)) t) ∧
          (∀ p w x, s.clientTurn = some (p, .posted w) → s.hit p w.page = some x → x.write = true →
            s.spe.pin ≠ some (x.physical w.page) → ∃ t, exec .busGrant s = .next t ∧
              Presents (withPosted (servedWith s p (.posted p (x.physical w.page) w.offset w.data)) p
                (some { w with cond := .underWay, pendingOn := some (x.physical w.page) })) t) ∧
          (s.clientTurn = none → ∀ page slot, s.testClaim = some (page, slot) →
            (s.testPort = none → ∃ t, exec .busGrant s = .next t ∧ Presents (s.beginTransfer (.test page slot false)) t) ∧
            ∀ p c q, s.testPort = some p → (s.link p).inWork = some ⟨c, q, .testStart⟩ → (s.link p).keptTaken = false →
              ∃ t, exec .busGrant s = .next t ∧ Presents (repliedWork (s.beginTransfer (.test page slot false)) p c q .ok []) t))))) ∧
  (∀ s : State, exec .busGrant s = .next (State.grantLoop 16 s)) ∧
  (∀ (n : Nat) (s : State),
    (s.psc.transfer ≠ none ∨ s.nextFetch = none ∧ s.displayTurn = none ∧ s.clientTurn = none ∧ s.testClaim = none →
      State.grantLoop (n + 1) s = s) ∧
    ∀ p w, s.psc.transfer = none → s.nextFetch = none → s.displayTurn = none → s.clientTurn = some (p, .posted w) →
      State.grantLoop (n + 1) s = State.grantLoop n (({ s with psc := { s.psc with lastServed := some p } }).grantPosted p w).settle) ∧
  (∀ (s : State) (n : Need), s.nextFetch = some n ↔ speechClaims s n) ∧
  (∀ l : List Need, prefetchWindow l = (distinct (l.map (·.page))).take 4) ∧
  (distinct [] = [] ∧ ∀ n l, distinct (n :: l) = n :: (distinct l).filter fun m => decide (m ≠ n)) ∧
  (∀ (s : State) (sd : Side), s.displayTurn = some sd ↔ (s.region sd).render ≠ none ∧
    ((s.region (otherSide sd)).render = none ∨ s.dsp.lastRead = some (otherSide sd) ∨ s.dsp.lastRead = none ∧ sd = .lower)) ∧
  (∀ (s : State) (p : Port) (c : PortClaim), s.clientTurn = some (p, c) ↔
    portClaims s p c ∧ ∀ p' c', portClaims s p' c' → p' ≠ p → turnsAway s.psc.lastServed p < turnsAway s.psc.lastServed p') ∧
  ∀ s : State,
    (∀ first last next sum, s.stu.result = .running (.storeSum first last next sum) → s.testClaim = some (first + next / 8, next % 8)) ∧
    (∀ r next n, s.stu.result = .running (.speechCheck r next n) →
      s.testClaim = some ((r.first + (next + 1) / 8) % 512, (next + 1) % 8)) ∧
    ((∀ first last next sum, s.stu.result ≠ .running (.storeSum first last next sum)) →
      (∀ r next n, s.stu.result ≠ .running (.speechCheck r next n)) → s.testClaim = none)

/-- A grant to a buffered write and the end of one (R107, R108): with no window, or one without WRITE, the write fails: it leaves the
buffer, the post error record is written and POST_FAULT is offered; on a pinned page it enters pin wait. When the buffer becomes
empty, a held WRITE PAGE is taken as one that arrives then, and a waiting read goes on. -/
def Obligations.PostedWriteSettles : Prop :=
  (∀ (s : State) (p : Port) (w : Posted), (s.portStore p).posted = some w →
    (∀ c, (s.hit p w.page = none ∧ c = PostCause.noWindow ∨ ∃ x, s.hit p w.page = some x ∧ x.write = false ∧ c = .noWrite) →
      s.grantPosted p w = (({ s with psc := { s.psc with ports := s.psc.ports.update p fun y =>
          { y with posted := none, error := some ⟨c, w.page, w.offset⟩ } } }).offer p
        ⟨.postFault, none, none, match c with | .noWindow => 0x0F | .noWrite => 0x11, BitVec.ofNat 16 w.page, false⟩).bufferEmptied p) ∧
    ∀ x, s.hit p w.page = some x → x.write = true →
      (s.spe.pin = some (x.physical w.page) →
        s.grantPosted p w = withPosted s p (some { w with cond := .pinWait, pendingOn := some (x.physical w.page) })) ∧
      (s.spe.pin ≠ some (x.physical w.page) →
        s.grantPosted p w = withPosted (s.beginTransfer (.posted p (x.physical w.page) w.offset w.data)) p
          (some { w with cond := .underWay, pendingOn := some (x.physical w.page) }))) ∧
  ∀ (s : State) (p : Port),
    (∀ c q page offset length, (s.link p).inWork = some ⟨c, q, .read page offset length true⟩ →
      s.bufferEmptied p = { s with lnk := s.lnk.update p fun l => { l with inWork := some ⟨c, q, .read page offset length false⟩ } }) ∧
    (∀ c q page offset data, (s.link p).inWork = some ⟨c, q, .heldWrite page offset data⟩ → (s.link p).keptTaken = false →
      (s.hit p page = none → s.bufferEmptied p = repliedWork s p c q .noWindow []) ∧
      ∀ w, s.hit p page = some w →
        (w.posted = true → s.bufferEmptied p = repliedWork (withPosted s p (some ⟨page, offset, data, .claiming, none⟩)) p c q .ok []) ∧
        (w.posted = false → w.write = false → s.bufferEmptied p = repliedWork s p c q .noWrite []) ∧
        (w.posted = false → w.write = true → s.spe.pin = some ((page + w.offset) % 512) →
          s.bufferEmptied p = repliedWork s p c q .pagePinned []) ∧
        (w.posted = false → w.write = true → s.spe.pin ≠ some ((page + w.offset) % 512) →
          s.bufferEmptied p = { s with lnk := s.lnk.update p fun l =>
            { l with inWork := some ⟨c, q, .write ((page + w.offset) % 512) offset data⟩ } })) ∧
    ((∀ c q page offset data, (s.link p).inWork ≠ some ⟨c, q, .heldWrite page offset data⟩) →
      (∀ c q page offset length, (s.link p).inWork ≠ some ⟨c, q, .read page offset length true⟩) → s.bufferEmptied p = s)

/-- TRANSFER_END (R104, R105, R106, R108, R126, R144, R145, R181 to R183): a read is answered with the bytes as they stand; a write's bytes
stand in the store, having moved now (log 26), and no other byte changes, a direct write is answered and a posted one leaves its buffer;
a response that finds the kept place taken waits for it (R160); a slot fetched for speech enters its page's copy; a text slot forms its
item and the render goes on; STORE SUM and SPEECH CHECK take their slot. Bytes of an abandoned read are discarded (log 26). With no
transfer under way nothing happens (log 5). A performed write drops the prefetch copy of its page, which is not the pinned one (R113,
R111). The model's choices here: a slot that no element needs is discarded, a page has one copy, and a discard makes room for it
(log 24); a copy that two phrases share keeps its first resolution (log 46); a held write is taken before a waiting pin is tried (log
44, unsafe). -/
def Obligations.TransferEnds : Prop :=
  ∀ s : State,
    (s.psc.transfer = none → exec .transferEnd s = .next s) ∧
    (∀ page slot res bytes, s.psc.transfer = some (.speech page slot res) →
      bytes = (List.range 64).map (fun i => readByte s.psc.memory page (64 * slot + i)) →
      ∃ t, exec .transferEnd s = .next t ∧ Presents (busFree s) t ∧
        (s.stillUseful page res = false → t = (busFree s).settle) ∧
        (s.stillUseful page res = true → s.spe.prefetch.length ≤ 4 → (∃ c ∈ s.spe.prefetch, c.page = page) →
          t = (prefetching (busFree s) (s.spe.prefetch.map fun c =>
            if c.page = page then { c with slots := (c.slots.filter fun x => decide (x.1 ≠ slot)) ++ [(slot, bytes)], finished := false }
            else c)).settle) ∧
        (s.stillUseful page res = true → s.spe.prefetch.length < 4 → (∀ c ∈ s.spe.prefetch, c.page ≠ page) →
          t = (prefetching (busFree s) (s.spe.prefetch ++ [⟨page, res, [(slot, bytes)], false⟩])).settle) ∧
        (s.stillUseful page res = true → 4 ≤ s.spe.prefetch.length → (∀ c ∈ s.spe.prefetch, c.page ≠ page) →
          ∀ past c, past = s.spe.prefetch.filter (fun y => decide (s.spe.pin ≠ some y.page) &&
              decide (y.page ∉ (slotsAhead s).map (·.page))) →
            past.find? (·.finished) = some c ∨ (∀ y ∈ past, y.finished = false) ∧ past.head? = some c →
            t = (prefetching (busFree s) ((s.spe.prefetch.filter fun y => decide (y ≠ c)) ++ [⟨page, res, [(slot, bytes)], false⟩])).settle)) ∧
    (∀ sd page dropped, s.psc.transfer = some (.display sd page dropped) →
      ∃ t, exec .transferEnd s = .next t ∧ Presents (busFree s) t ∧
        (dropped = true → t = (busFree s).settle) ∧
        ∀ r n e rest, dropped = false → (s.region sd).render = some r → r.todo = (n, e) :: rest →
          t = ((busFree s).onRegion sd fun g => rendered s sd r.language (r.formed ++ [(n, .glyphs
            (((List.range 63).map fun i => readByte s.psc.memory page (i + 1)).take (min (readByte s.psc.memory page 0).toNat 40)))]) rest g).settle) ∧
    (∀ (lang : Fin 4) (f : List (Nat × TextItem)) (n : Nat) (rest : List (Nat × LineElem)),
      s.formElems lang f [] = (f, [], none) ∧
      (∀ v, s.formElems lang f ((n, .number v) :: rest) = s.formElems lang (f ++ [(n, .glyphs (numberGlyphs v))]) rest) ∧
      s.formElems lang f ((n, .countdown) :: rest) = s.formElems lang (f ++ [(n, .countdown)]) rest ∧
      s.formElems lang f ((n, .blank) :: rest) = s.formElems lang (f ++ [(n, .glyphs [])]) rest ∧
      ∀ ph, (∀ r, s.resolve ph lang = some r → r.text = true →
          s.formElems lang f ((n, .text ph) :: rest) = (f, (n, .text ph) :: rest, some r.first)) ∧
        ((∀ r, s.resolve ph lang = some r → r.text = false) →
          s.formElems lang f ((n, .text ph) :: rest) = s.formElems lang (f ++ [(n, .glyphs [])]) rest)) ∧
    (∀ p page offset length c q, s.psc.transfer = some (.read p page offset length) →
      (s.link p).inWork = some ⟨c, q, .read page offset length false⟩ → (s.link p).keptTaken = false →
      ∃ t, exec .transferEnd s = .next t ∧ Presents (repliedWork (busFree s) p c q .ok
        ((List.range length).map fun i => readByte s.psc.memory page (offset + i))) t) ∧
    (∀ p page offset data c q, s.psc.transfer = some (.write p page offset data) →
      (s.link p).inWork = some ⟨c, q, .write page offset data⟩ → (s.link p).keptTaken = false →
      offset + data.length ≤ 512 → storeCanonical s →
      ∃ t, exec .transferEnd s = .next t ∧
        Presents (repliedWork (storeHolding (busFree s) t.psc.memory) p c q .ok []) t ∧
        bytesWritten s.psc.memory t.psc.memory page offset data ∧
        (s.spe.pin ≠ some page → (∀ y ∈ t.spe.prefetch, y.page ≠ page) ∧
          t = (repliedWork (copyDropped (storeHolding (busFree s) t.psc.memory) page) p c q .ok []).settle)) ∧
    (∀ p page offset length c q, s.psc.transfer = some (.read p page offset length) →
      (s.link p).inWork = some ⟨c, q, .read page offset length false⟩ → (s.link p).keptTaken = true →
      ∃ t, exec .transferEnd s = .next t ∧ Presents (responseWaits (busFree s) p c q
        ((List.range length).map fun i => readByte s.psc.memory page (offset + i))) t) ∧
    (∀ p page offset data c q, s.psc.transfer = some (.write p page offset data) →
      (s.link p).inWork = some ⟨c, q, .write page offset data⟩ → (s.link p).keptTaken = true →
      offset + data.length ≤ 512 → storeCanonical s →
      ∃ t, exec .transferEnd s = .next t ∧
        Presents (responseWaits (storeHolding (busFree s) t.psc.memory) p c q []) t ∧
        bytesWritten s.psc.memory t.psc.memory page offset data ∧
        (s.spe.pin ≠ some page → (∀ y ∈ t.spe.prefetch, y.page ≠ page) ∧
          t = (responseWaits (copyDropped (storeHolding (busFree s) t.psc.memory) page) p c q []).settle)) ∧
    (∀ p page offset data, s.psc.transfer = some (.posted p page offset data) → offset + data.length ≤ 512 → storeCanonical s →
      ∃ t, exec .transferEnd s = .next t ∧
        Presents ((withPosted (storeHolding (busFree s) t.psc.memory) p none).bufferEmptied p) t ∧
        bytesWritten s.psc.memory t.psc.memory page offset data ∧
        (s.spe.pin ≠ some page → (∀ y ∈ t.spe.prefetch, y.page ≠ page) ∧
          t = ((withPosted (copyDropped (storeHolding (busFree s) t.psc.memory) page) p none).bufferEmptied p).settle)) ∧
    (∀ page slot, s.psc.transfer = some (.test page slot true) →
      ∃ t, exec .transferEnd s = .next t ∧ Presents (busFree s) t) ∧
    (∀ page slot first last next sum, s.psc.transfer = some (.test page slot false) →
      s.stu.result = .running (.storeSum first last next sum) → ∃ t v, exec .transferEnd s = .next t ∧
        v = (sum + (((List.range 64).map fun i => readByte s.psc.memory page (64 * slot + i)).map (·.toNat)).sum) % 65536 ∧
        (next + 1 ≠ 8 * (last - first + 1) → Presents (resultSet (busFree s) (.running (.storeSum first last (next + 1) v))) t) ∧
        (next + 1 = 8 * (last - first + 1) → Presents (testEnded (busFree s) .storeSum .pass v (last - first + 1)) t)) ∧
    ∀ page slot r next n, s.psc.transfer = some (.test page slot false) →
      s.stu.result = .running (.speechCheck r next n) → ∃ t m, exec .transferEnd s = .next t ∧
        (faulted ((List.range 64).map fun i => readByte s.psc.memory page (64 * slot + i)) → m = n + 1) ∧
        (¬ faulted ((List.range 64).map fun i => readByte s.psc.memory page (64 * slot + i)) → m = n) ∧
        (next + 1 ≠ r.blocks → Presents (resultSet (busFree s) (.running (.speechCheck r (next + 1) m))) t) ∧
        (next + 1 = r.blocks →
          Presents (testEnded (busFree s) .speechCheck (if m = 0 then .pass else .fail) r.blocks m) t)

/-! ### Configuration, library tables, service mode -/

/-- SET CONFIG and READ CONFIG (R175, R176, R53): a record with an item out of range is BAD_FIELD and changes nothing; otherwise the
record is replaced whole and ASLEEP sides take the house values at once, LOWER and then UPPER: a prompt shown is rendered in another house
language (R143; logs 11 and 48 for the regions a new choice leaves to the fallback page), and under house mode OFF a pending replay is
cleared (log 21) and a speaker's span counts as delivered at the end of the element, which is noted (R40, R41, R46; log 22). After a changed fair turn setting both regions are chosen again
(R30, R35), LOWER first (log 38) and after the house values have been settled (log 40), the model's choices. READ CONFIG returns the
record in the order of R174. -/
def Obligations.ConfigSetAndRead : Prop :=
  (∀ (s : State) (p : Port) (q : Byte) (b : ConfigBody), ready s p 0x40 →
    (¬ configInRange b → exec (.setConfig p q b) s = .next (answered s p 0x40 q .badField [])) ∧
    (configInRange b → ∃ c t, configHolds c b ∧ exec (.setConfig p q b) s = .next t ∧
      Presents (answered (configured s c) p 0x40 q .ok []) t ∧
      ∃ v, Presents (configured (receiving s p .hunt) c) v ∧
        v = (houseTaken (houseTaken { receiving s p .hunt with cfg := c } .lower) .upper).settle ∧
        (c.fairTurn = s.cfg.fairTurn → t = repliedWork v p 0x40 q .ok []) ∧
        (c.fairTurn ≠ s.cfg.fairTurn →
          t = repliedWork ((v.chooseRegion .lower).chooseRegion .upper).settle p 0x40 q .ok []))) ∧
  ∀ (s : State) (p : Port) (q : Byte), ready s p 0x41 →
    exec (.readConfig p q) s = .next (answered s p 0x41 q .ok
      ([fourCode s.cfg.language, modeCode s.cfg.mode, fourCode s.cfg.volume, byteOf s.cfg.levels.l0, byteOf s.cfg.levels.l1,
        byteOf s.cfg.levels.l2, byteOf s.cfg.levels.l3] ++ wordBytes s.cfg.idleTimeout ++ wordBytes s.cfg.holdLapse ++
        wordBytes s.cfg.panelOff ++ [byteOf s.cfg.quotaLower, byteOf s.cfg.quotaUpper, byteOf s.cfg.quotaPayment,
        byteOf s.cfg.quotaRoom, boolCode s.cfg.lockOnFault, boolCode s.cfg.fairTurn]))

/-- SET TONE, SET GLYPH and SET SEGMENT MAP (R138, R148, R150): one pattern, one glyph or the whole map is replaced, a tone in play goes on
with its own copy, and an operand out of range is BAD_FIELD. -/
def Obligations.LibraryTablesSet : Prop :=
  (∀ (s : State) (p : Port) (q n count : Byte) (notes : List (Byte × Byte)), ready s p 0x42 → notes.length = count.toNat →
    storeCanonical s →
    (15 < n.toNat ∨ 8 < count.toNat ∨ (∃ x ∈ notes, x.2 = 0) →
      exec (.setTone p q n count notes) s = .next (answered s p 0x42 q .badField [])) ∧
    (n.toNat ≤ 15 → count.toNat ≤ 8 → (∀ x ∈ notes, x.2 ≠ 0) → ∃ t, exec (.setTone p q n count notes) s = .next t ∧
      t = answered { s with tgn := { s.tgn with patterns := t.tgn.patterns } } p 0x42 q .ok [] ∧
      t.pattern n.toNat = notes.map (fun x => ⟨x.1.toNat, x.2.toNat⟩) ∧ ∀ n', n' ≠ n.toNat → t.pattern n' = s.pattern n')) ∧
  (∀ (s : State) (p : Port) (q code : Byte) (rows : List Byte), ready s p 0x43 → rows.length = 16 → storeCanonical s →
    (code.toNat < 0x20 ∨ 0xDF < code.toNat →
      exec (.setGlyph p q code rows) s = .next (answered s p 0x43 q .badField [])) ∧
    (0x20 ≤ code.toNat → code.toNat ≤ 0xDF → ∃ t, exec (.setGlyph p q code rows) s = .next t ∧
      t = answered { s with dsp := { s.dsp with font := t.dsp.font } } p 0x43 q .ok [] ∧
      (∀ r, r < 16 → t.glyphRow false code r = rows.getD r 0) ∧
      ∀ code' r, code' ≠ code → t.glyphRow false code' r = s.glyphRow false code' r)) ∧
  ∀ (s : State) (p : Port) (q : Byte) (entries : List Byte), ready s p 0x44 → entries.length = 32 →
    ((∃ b ∈ entries, 39 < b.toNat ∧ b ≠ 0xFF) →
      exec (.setSegmentMap p q entries) s = .next (answered s p 0x44 q .badField [])) ∧
    ((∀ b ∈ entries, b.toNat ≤ 39 ∨ b = 0xFF) → exec (.setSegmentMap p q entries) s = .next
      (answered { s with dsp := { s.dsp with map := entries.map fun b => if b = 0xFF then none else some b.toNat } } p 0x44 q .ok []))

/-- ENTER SERVICE and LEAVE SERVICE (R177, R178): entering sets the flag; leaving aborts a running test and then an audition, with TEST_DONE
to the ROOM port for each in that order, clears the display overrides and the flag, and out of service mode changes nothing. The channel
that a stopped audition frees is granted after the flag is cleared (log 54, the model's choice). An end of a KEY CHECK that falls together
with its abort is noted as overtaken (log 36). -/
def Obligations.ServiceModeChanged : Prop :=
  ∀ (s : State) (p : Port) (q : Byte),
    (ready s p 0x50 → exec (.enterService p q) s =
      .next (answered { s with stu := { s.stu with flag := true } } p 0x50 q .ok [])) ∧
    (ready s p 0x51 →
      (s.stu.flag = false → exec (.leaveService p q) s = .next (answered s p 0x51 q .ok [])) ∧
      (s.stu.flag = true → ∃ t, exec (.leaveService p q) s = .next t ∧ Presents (answered (serviceLeft s) p 0x51 q .ok []) t ∧
        t = repliedWork (serviceGone (receiving s p .hunt)).settle p 0x51 q .ok [] ∧ t.stu.audition = none ∧
        ∀ r, s.portOf .room = some r →
          (∀ k, s.stu.result = .running k →
            queueAfter (noticesOf s r) ⟨.testDone, none, none, testCode k.kind, 3, false⟩ <+: noticesOf t r) ∧
          ((∀ k, s.stu.result ≠ .running k) → s.stu.audition ≠ none →
            queueAfter (noticesOf s r) ⟨.testDone, none, none, 5, 3, false⟩ <+: noticesOf t r) ∧
          (∀ k, s.stu.result = .running k → s.stu.audition ≠ none →
            queueAfter (queueAfter (noticesOf s r) ⟨.testDone, none, none, testCode k.kind, 3, false⟩)
              ⟨.testDone, none, none, 5, 3, false⟩ <+: noticesOf t r)))

/-- LAMP TEST sets both override flags to the values carried, or is BAD_FIELD and changes neither; leaving service mode clears both (R179). -/
def Obligations.LampTestSet : Prop :=
  (∀ (s : State) (p : Port) (q : Byte), ready s p 0x51 → s.stu.flag = true →
    ∃ t, exec (.leaveService p q) s = .next t ∧ t.dsp.lampTest = false ∧ t.dsp.blank = false) ∧
  ∀ (s : State) (p : Port) (q lamp blank : Byte), ready s p 0x52 →
    (1 < lamp.toNat ∨ 1 < blank.toNat → exec (.lampTest p q lamp blank) s = .next (answered s p 0x52 q .badField [])) ∧
    (lamp.toNat ≤ 1 → blank.toNat ≤ 1 → exec (.lampTest p q lamp blank) s = .next
      (answered { s with dsp := { s.dsp with lampTest := decide (lamp = 1), blank := decide (blank = 1) } } p 0x52 q .ok []))

/-- SELF TEST with its four tests (R181 to R185): a record that is not EMPTY refuses; a parameter out of range is BAD_FIELD; STORE SUM and
SPEECH CHECK run with the request in work, KEY CHECK runs, and DIRECTORY CHECK, or SPEECH CHECK of an absent entry or of one
without blocks, is done at once. -/
def Obligations.SelfTestsStarted : Prop :=
  ∀ (s : State) (p : Port) (q : Byte) (a b : Word16), ready s p 0x53 →
    (∀ c, c = Instr.storeSum p q a b ∨ c = .speechCheck p q a b ∨ c = .directoryCheck p q a b ∨ c = .keyCheck p q a b →
      s.stu.result ≠ .empty → exec c s = .next (answered s p 0x53 q .testResultPending [])) ∧
    (s.stu.result = .empty →
      exec (.storeSum p q a b) s = .next
        (if a.toNat ≤ b.toNat ∧ b.toNat ≤ 511 then
          inWorkWith (resultSet s (.running (.storeSum a.toNat b.toNat 0 0))) p 0x53 q .testStart
        else answered s p 0x53 q .badField []) ∧
      (254 < a.toNat ∨ 3 < b.toNat → exec (.speechCheck p q a b) s = .next (answered s p 0x53 q .badField [])) ∧
      (∀ l : Fin 4, a.toNat ≤ 254 → b.toNat = l.val → exec (.speechCheck p q a b) s = .next
        (if (s.entry a.toNat l).present = false then answered (testEnded s .speechCheck .fail 0 0) p 0x53 q .ok []
        else if (s.entry a.toNat l).blocks = 0 then answered (testEnded s .speechCheck .pass 0 0) p 0x53 q .ok []
        else inWorkWith (resultSet s (.running (.speechCheck
          ⟨a.toNat, l, (s.entry a.toNat l).first, (s.entry a.toNat l).blocks, (s.entry a.toNat l).text⟩ 0 0))) p 0x53 q .testStart)) ∧
      (∀ m n, m = s.psc.directory.countP (fun x => x.2.present && decide (4096 < 8 * x.2.first + 1 + x.2.blocks)) →
        n = s.psc.directory.countP (fun x => x.2.present && decide (x.2.blocks = 0) && !x.2.text) →
        exec (.directoryCheck p q a b) s = .next
          (answered (testEnded s .directoryCheck (if m = 0 ∧ n = 0 then .pass else .fail) m n) p 0x53 q .ok [])) ∧
      exec (.keyCheck p q a b) s = .next
        (if 1 ≤ a.toNat ∧ a.toNat ≤ 60 then answered (resultSet s (.running (.keyCheck (100 * a.toNat) 0 0))) p 0x53 q .ok []
        else answered s p 0x53 q .badField []))

/-- READ TEST RESULT and KEY_CHECK_END (R181, R185): a DONE record is reported and emptied, a RUNNING one is reported with verdict 0, an
EMPTY one with test 0 and free bytes behind it, the verdict among the codes sent (log 8); the end of a KEY CHECK makes the record DONE
with PASS and the count, and without a KEY CHECK, or where its abort of the same moment has overtaken it (log 36), changes nothing else
(log 5). -/
def Obligations.TestResultsRead : Prop :=
  (∀ (s : State) (p : Port) (q : Byte), ready s p 0x54 →
    (s.stu.result = .empty → ∃ a f, a.length = 5 ∧ (∀ v ∈ a.head?, v.toNat ≤ 3) ∧
      exec (.readTestResult p q) s = .next { (answered s p 0x54 q .ok (0 :: a)) with free := f }) ∧
    (∀ k, s.stu.result = .running k →
      exec (.readTestResult p q) s = .next (answered s p 0x54 q .ok [testCode k.kind, 0, 0, 0, 0, 0])) ∧
    ∀ k v a b, s.stu.result = .done k v a b → exec (.readTestResult p q) s = .next
      (answered (resultSet s .empty) p 0x54 q .ok ([testCode k, verdictCode v] ++ wordBytes a ++ wordBytes b))) ∧
  ∀ s : State,
    (s.stu.checkLate = true → exec .keyCheckEnd s = .next { s with stu := { s.stu with checkLate := false } }) ∧
    (∀ d t n, s.stu.checkLate = false → s.stu.result = .running (.keyCheck d t n) →
      exec .keyCheckEnd s = .next (testEnded s .keyCheck .pass n 0)) ∧
    (s.stu.checkLate = false → (∀ d t n, s.stu.result ≠ .running (.keyCheck d t n)) → exec .keyCheckEnd s = .next s)

/-- AUDITION, RESTORE SPEECH and RECOVERY_END (R132, R133, R180), and the grant of the channel (R39, R42, R48, R49, R120). An audition becomes
a candidate, an earlier one ends with ABORTED first and the channel it held is granted with the new one among the candidates (log 41);
RESTORE SPEECH clears both counts and brings a SILENCED channel to IDLE with SPEECH_STATE to every bound port; the recovery timer ends
in IDLE, or in SILENCED where lock-on-fault is set and two self-resets are counted, which clears the pending replays (R41; log 21);
outside RECOVERING its end changes nothing (log 5).
Then the channel settles: settle takes the small steps that this statement (in IDLE) and SpeechGoesOn (in a turn) give. In IDLE the
top-ranked candidate is granted the channel. A replay goes before a repeat and absorbs one that is due or has started (log 20, the
model's choice), and a page counts as finished wherever its pin is removed, where an audition is stopped too (log 47). A
repeat that falls together with the replay that stops its timer does not come (log 36). -/
def Obligations.SpeechServed : Prop :=
  (∀ (s : State) (p : Port) (q n l : Byte), ready s p 0x55 →
    (n = 0xFF ∨ 3 < l.toNat → exec (.audition p q n l) s = .next (answered s p 0x55 q .badField [])) ∧
    ∀ lang, n ≠ 0xFF → fourOf l = some lang → ∃ t, exec (.audition p q n l) s = .next t ∧
      Presents (answered s p 0x55 q .ok []) t ∧
      (s.stu.audition ≠ none → ∀ r, s.portOf .room = some r →
        queueAfter (noticesOf s r) ⟨.testDone, none, none, 5, 3, false⟩ <+: noticesOf t r) ∧
      (s.stu.audition = none →
        t = repliedWork (auditionAsked (receiving s p .hunt) ⟨n.toNat, lang⟩).settle p 0x55 q .ok []) ∧
      (s.stu.audition ≠ none → s.sch.turn ≠ some .audition → t = repliedWork
        (auditionAsked ((receiving s p .hunt).offerRoom ⟨.testDone, none, none, 5, 3, false⟩) ⟨n.toNat, lang⟩).settle p 0x55 q .ok []) ∧
      (s.stu.audition ≠ none → s.sch.turn = some .audition → t = repliedWork
        (auditionAsked ((channelLastOwned (turnOver (receiving s p .hunt) .idle) (s.portOf .room)).offerRoom
          ⟨.testDone, none, none, 5, 3, false⟩) ⟨n.toNat, lang⟩).settle p 0x55 q .ok []) ∧
      (s.stu.audition = none → s.owesInVain = false → s.spe.channel = .recovering ∨ s.spe.channel = .silenced →
        t = answered { s with stu := { s.stu with audition := some ⟨n.toNat, lang⟩ } } p 0x55 q .ok [])) ∧
  (∀ (s : State) (p : Port) (q : Byte), ready s p 0x56 →
    (s.spe.channel ≠ .silenced → exec (.restoreSpeech p q) s =
      .next (answered { s with spe := { s.spe with faults := 0, resets := 0 } } p 0x56 q .ok [])) ∧
    (s.spe.channel = .silenced → ∃ t, exec (.restoreSpeech p q) s = .next t ∧ t.spe.channel ≠ .silenced ∧
      Presents (answered (s.offerEach [.a, .b, .c, .d] ⟨.speechState, none, none, 2, 0, false⟩) p 0x56 q .ok []) t ∧
      t = repliedWork ({ receiving s p .hunt with spe := { s.spe with faults := 0, resets := 0, channel := .idle } }.offerEach
        [.a, .b, .c, .d] ⟨.speechState, none, none, 2, 0, false⟩).settle p 0x56 q .ok [])) ∧
  (∀ s : State,
    (s.spe.channel ≠ .recovering → exec .recoveryEnd s = .next s) ∧
    (s.spe.channel = .recovering →
      (s.cfg.lockOnFault = true → 2 ≤ s.spe.resets → ∃ t, exec .recoveryEnd s = .next t ∧
        Presents (s.offerEach [.a, .b, .c, .d] ⟨.speechState, none, none, 1, BitVec.ofNat 16 s.spe.resets, false⟩) t ∧
        t.spe.channel = .silenced ∧ t.spe.recovery = none ∧ (∀ sd, (t.schedule sd).replay = none) ∧
        t = (replayCleared (replayCleared ({ s with spe := { s.spe with channel := .silenced, recovery := none } }.offerEach
          [.a, .b, .c, .d] ⟨.speechState, none, none, 1, BitVec.ofNat 16 s.spe.resets, false⟩) .lower) .upper).settle) ∧
      (s.cfg.lockOnFault = false ∨ s.spe.resets < 2 → ∃ t, exec .recoveryEnd s = .next t ∧ Presents s t ∧
        t = { s with spe := { s.spe with channel := .idle, recovery := none } }.settle ∧
        ({ s with spe := { s.spe with channel := .idle, recovery := none } }.speechStep = none →
          t = { s with spe := { s.spe with channel := .idle, recovery := none } })))) ∧
  ∀ s : State, s.spe.channel = .idle → s.owesInVain = false → slotsDistinct s →
    ((∀ x k, ¬ channelCandidate s x k) → ¬ auditionWaiting s → s.speechStep = none) ∧
    (auditionWaiting s → (∀ x k, channelCandidate s x k → auditionAbove s x) → s.speechStep = some (speakingFor s .audition)) ∧
    ∀ x k, channelCandidate s x k →
      (∀ y k', channelCandidate s y k' → y ≠ x → ranksAbove s.cfg.fairTurn s.sch.lastChannel s.ptb.prompts x y) →
      (auditionWaiting s → ¬ auditionAbove s x) →
      (turnBegins s x k → s.speechStep = some (turnGranted s x (turnBegun s x k) k)) ∧
      (¬ turnBegins s x k → s.speechStep = some (turnGranted s x { x with hasSpoken := true } k))

/-! ### Keys -/

/-- KEY_CONTACT_CHANGE, MAKE_CONFIRMED, BREAK_CONFIRMED and the events that are not made (R75, R76, R78, R79): the contact states and
their marks; a confirmed make is a wake while the panel is OFF or SETTLING and no KEY CHECK runs. BREAK_CONFIRMED of an unspent key is
its PRESS (log 34), before scanning begins only the pin moves (log 6), and an event whose key is in no state to make it changes nothing
(log 5): the model's choices. A wake of a panel that was OFF renders both regions (R152; logs 11 and 48 for a fallback page), and an idle
timer at its end is noted as overtaken, as is a debounce time at its end when its contact changes; a confirmation that was overtaken in
the same moment confirms nothing (log 36). -/
def Obligations.ContactsFollowed : Prop :=
  (∀ (s : State) (sd : Side) (k : Key) (f : KeyRecord → KeyRecord), changesOnly [.keys] s (s.onKey sd k f) ∧
    (s.onKey sd k f).ksc.scanning = s.ksc.scanning ∧
    (∀ sd' k', (s.onKey sd k f).keyRecord sd' k' = if sd' = sd ∧ k' = k then f (s.keyRecord sd k) else s.keyRecord sd' k') ∧
    ∀ sd', ((s.onKey sd k f).ksc.sides.get sd').knob = (s.ksc.sides.get sd').knob) ∧
  (∀ (s : State) (sd : Side) (k : Key) (closed : Bool),
    (s.ksc.scanning = false →
      exec (.keyContactChange sd k closed) s = .next (s.onKey sd k fun r => { r with closed := closed })) ∧
    (s.ksc.scanning = true → exec (.keyContactChange sd k closed) s = .next (s.onKey sd k fun r =>
      { r with
        closed := closed
        state := match r.state with
          | .idle => if closed then .making 0 else .idle
          | .making n => if closed then .making n else .idle
          | .down => if closed then .down else .breaking 0
          | .breaking n => if closed then .down else .breaking n
        makeLate := r.makeLate || (match r.state with | .making n => !closed && decide (3 ≤ n) | _ => false)
        breakLate := r.breakLate || (match r.state with | .breaking n => closed && decide (3 ≤ n) | _ => false) }))) ∧
  ∀ (s : State) (sd : Side) (k : Key),
    ((s.keyRecord sd k).makeLate = true →
      exec (.makeConfirmed sd k) s = .next (s.onKey sd k fun r => { r with makeLate := false })) ∧
    ((s.keyRecord sd k).breakLate = true →
      exec (.breakConfirmed sd k) s = .next (s.onKey sd k fun r => { r with breakLate := false }) ∧
      exec (.press sd k) s = .next (s.onKey sd k fun r => { r with breakLate := false })) ∧
    ((s.keyRecord sd k).makeLate = false → (∀ n, (s.keyRecord sd k).state ≠ .making n) → exec (.makeConfirmed sd k) s = .next s) ∧
    (∀ n, (s.keyRecord sd k).makeLate = false → (s.keyRecord sd k).state = .making n →
      (s.keyCheckRuns = true ∨ s.dsp.power = .on ∨ s.dsp.power = .dim → exec (.makeConfirmed sd k) s =
        .next (s.onKey sd k fun r => { r with state := .down, held := 0, spent := false })) ∧
      (s.keyCheckRuns = false → s.dsp.power = .off ∨ s.dsp.power = .settling → ∃ t, exec (.makeConfirmed sd k) s = .next t ∧
        Presents (eventPassed (s.onKey sd k fun r => { r with state := .down, held := 0, spent := true }) sd) t ∧
        t = eventWoken (s.onKey sd k fun r => { r with state := .down, held := 0, spent := true }) sd)) ∧
    ((s.keyRecord sd k).breakLate = false → (∀ n, (s.keyRecord sd k).state ≠ .breaking n) →
      exec (.breakConfirmed sd k) s = .next s ∧ exec (.press sd k) s = .next s) ∧
    (∀ n, (s.keyRecord sd k).breakLate = false → (s.keyRecord sd k).state = .breaking n →
      ((s.keyRecord sd k).spent = true → exec (.press sd k) s = .next s ∧
        exec (.breakConfirmed sd k) s = .next (s.onKey sd k fun r => { r with state := .idle })) ∧
      ((s.keyRecord sd k).spent = false → exec (.breakConfirmed sd k) s = exec (.press sd k) s)) ∧
    ((s.keyRecord sd k).state ≠ .down ∨ (s.keyRecord sd k).spent = true → exec (.hold sd k) s = .next s)

/-- A key event is taken (R78 to R84, R89): during KEY CHECK it goes to the ROOM port and is counted; while the panel is OFF or SETTLING it is
a wake, also for a press whose make was confirmed in the dark during a KEY CHECK that has ended since (log 43, the model's choice);
otherwise the session-start event passes, the click or the reject tone is requested, and without a focused prompt the KEY notice goes to
the side's holder or drum, or is discarded where there is neither. The session-start event notes an idle timer at its end as overtaken
(log 36), and a wake of a panel that was OFF renders both regions (R152; logs 11 and 48 for a fallback page). -/
def Obligations.KeysRouted : Prop :=
  (∀ (s u : State) (c : Instr) (sd : Side) (k : Key) (hold : Bool), makesKeyEvent s c sd k hold u →
    (s.keyCheckRuns = true → exec c s = .next (checkedKey u sd (.key k) (if hold then .hold else .press))) ∧
    (s.keyCheckRuns = false → s.dsp.power = .off ∨ s.dsp.power = .settling → ∃ t, exec c s = .next t ∧
      Presents (eventPassed (u.onKey sd k fun r => { r with spent := true }) sd) t ∧
      t = eventWoken (u.onKey sd k fun r => { r with spent := true }) sd) ∧
    (keysAccepted s → k ≠ .help → k ≠ .speech →
      ((∀ x, ¬ focused s sd x) →
        exec c s = .next (keyOffered (keyToned (eventPassed u sd) 14 sd .click) sd (.key k) (if hold then .hold else .press))) ∧
      (∀ x, focused s sd x → ¬ keyAnswers x k hold → exec c s = .next (keyToned (eventPassed u sd) 15 sd .reject)))) ∧
  ∀ (s : State) (sd : Side) (x y : Prompt), focused s sd x → focused s sd y → x = y

/-- An accepted key event that answers, asks for help or steps the speech mode (R82, R86, R87, R48, R21): an answer closes an ACTION or
CONFIRM prompt, whose region is chosen again (R35), and acknowledges a SAFETY or FAULT prompt, whose span stops at once, with its repeat
timer and anything of a repeat (R21, R46), and whose replay is forgotten. HELP records the region owner as the pending replay unless there
is none or the side cannot speak; it changes nothing where that prompt's replay is pending and not yet granted, or cut short and waiting
to go on (log 19, the model's choice), and sets the further-replay mark where the replay plays (R48). SPEECH steps ON, ASSIST, OFF; OFF
lets the side's speaking span count as delivered and clears its replay, whose repeat timer starts again (log 21, the model's choice). An end of a closed
prompt's timer in the same moment does not come (log 36), and the channel settles after the choice (log 16). HELP for a prompt whose cleared replay
still plays records a new one (log 50), and HELP for an owner with an empty span records a replay too (log 51): the model's choices. -/
def Obligations.KeysAnswer : Prop :=
  ∀ (s u : State) (c : Instr) (sd : Side) (k : Key) (hold : Bool), makesKeyEvent s c sd k hold u → keysAccepted s →
    (∀ x, focused s sd x → keyAnswers x k hold →
      (x.cls = .action ∨ x.cls = .confirm → ∃ t, exec c s = .next t ∧ Presents (promptGone (eventPassed u sd) x
        (if hold then 2 else 1) ((eventKeyCode (.key k)).setWidth 16)) t ∧
        t = promptClosed (keyToned (eventPassed u sd) 14 sd .click) x (if hold then 2 else 1) ((eventKeyCode (.key k)).setWidth 16)) ∧
      (x.cls = .safety ∨ x.cls = .fault → ∃ t y, exec c s = .next t ∧ t.prompt x.slot = some y ∧
        y.state = .granted .acknowledged ∧ y.repeatTimer = none ∧ y.repeatDue = false ∧ y.repeatStarted = false ∧
        (slotsDistinct s → ∀ k', t.sch.turn ≠ some (.prompt x.slot k')) ∧
        t = ((replayForgotten ((spanStopped (keyToned (eventPassed u sd) 14 sd .click) x).onPrompt x.slot fun z =>
          { z with state := .granted .acknowledged, repeatTimer := none, repeatDue := false, repeatStarted := false }) x.side x.slot).offer
            x.owner ⟨.answered, some x.side, some x.tag, eventKeyCode (.key k), if hold then 1 else 0, false⟩).settle ∧
        Presents ((eventPassed u sd).offer x.owner
          ⟨.answered, some x.side, some x.tag, eventKeyCode (.key k), if hold then 1 else 0, false⟩) t)) ∧
    (k = .help →
      ((s.schedule sd).owner = none ∨ (s.records sd).session.mode = .off ∨ s.spe.channel = .silenced →
        exec c s = .next (keyToned (eventPassed u sd) 14 sd .click)) ∧
      (∀ n, (s.schedule sd).owner = some n → (s.records sd).session.mode ≠ .off → s.spe.channel ≠ .silenced →
        ∃ t, exec c s = .next t ∧ Presents (eventPassed u sd) t ∧
          ((∀ r, (s.schedule sd).replay = some r → r.slot ≠ n) →
            t = ((keyToned (eventPassed u sd) 14 sd .click).onSchedule sd fun y =>
              { y with replay := some ⟨n, false, false⟩ }).settle) ∧
          ∀ r, (s.schedule sd).replay = some r → r.slot = n →
            (r.started = false → t = keyToned (eventPassed u sd) 14 sd .click) ∧
            (r.started = true → s.sch.turn = some (.prompt n .replay) →
              t = (keyToned (eventPassed u sd) 14 sd .click).onSchedule sd fun y =>
                { y with replay := some ⟨n, true, true⟩ }) ∧
            (r.started = true → s.sch.turn ≠ some (.prompt n .replay) → t = keyToned (eventPassed u sd) 14 sd .click))) ∧
    (k = .speech → ∃ t, exec c s = .next t ∧ (∀ m, m = (match (s.records sd).session.mode with
        | .on => .assist | .assist => .off | .off => .on) → t = modeSet (keyToned (eventPassed u sd) 14 sd .click) sd m) ∧
      Presents ((eventPassed u sd).onSession sd fun y =>
        { y with mode := match y.mode with | .on => .assist | .assist => .off | .off => .on }) t)

/-- KNOB_PHASE_CHANGE (R77, R85, R89, R79): the contacts follow; a knob that leaves REST records the position it leaves through; a jump to
the opposite position sets the seeking flag until REST; a detent goes to the ROOM port during KEY CHECK, wakes a dark panel, and
otherwise passes the session-start event and goes to the holder or the drum. A jump from B straight to REST leaves the flag clear (log
33), and before scanning begins only the pins move (log 6). The session-start event notes an idle timer at its end as overtaken (log 36),
and a wake of a panel that was OFF renders both regions (R152; logs 11 and 48 for a fallback page). -/
def Obligations.KnobFollowed : Prop :=
  (∀ (s : State) (sd : Side) (p q : Bool),
    (s.ksc.scanning = false → exec (.knobPhaseChange sd p q) s = .next (s.onKnob sd fun x => { x with p := p, q := q })) ∧
    (s.ksc.scanning = true → ∀ x, x = (s.ksc.sides.get sd).knob →
      (x.seeking = true → exec (.knobPhaseChange sd p q) s = .next (s.onKnob sd fun _ => ⟨p, q, x.leaving, p || q⟩)) ∧
      (x.seeking = false → x.p ≠ p → x.q ≠ q →
        exec (.knobPhaseChange sd p q) s = .next (s.onKnob sd fun _ => ⟨p, q, x.leaving, p || q⟩)) ∧
      (x.seeking = false → x.p = p → x.q = q → exec (.knobPhaseChange sd p q) s = .next s) ∧
      (x.seeking = false → (x.p = p ↔ x.q ≠ q) → (∀ kd u, ¬ makesDetent s (.knobPhaseChange sd p q) sd kd u) →
        exec (.knobPhaseChange sd p q) s = .next (s.onKnob sd fun _ => ⟨p, q,
          if (x.p || x.q) = true then x.leaving else if p then some .a else some .c, false⟩)))) ∧
  ∀ (s u : State) (c : Instr) (sd : Side) (kd : EventKind), makesDetent s c sd kd u →
    (s.keyCheckRuns = true → exec c s = .next (checkedKey u sd .knob kd)) ∧
    (s.keyCheckRuns = false → s.dsp.power = .off ∨ s.dsp.power = .settling →
      ∃ t, exec c s = .next t ∧ Presents (eventPassed u sd) t ∧ t = eventWoken u sd) ∧
    (keysAccepted s → exec c s = .next (keyOffered (eventPassed u sd) sd .knob kd))

/-! ### Panel, tones, speech -/

/-- PANEL_OFF, SETTLING_END, BLINK_HALF, DISPLAY_REFRESH and TONE_NOTE_END (R139, R151, R152, R154): each acts where its timer runs and
changes nothing otherwise (log 5). In the lamp test the driver is taken as on (log 27). Backlight and driver follow the power state at the
refresh (log 53, the model's choice), so the other rows leave what the panel shows. An end of the panel-off timer or of a note that a side
gone ACTIVE or a replaced tone of the same moment has overtaken does nothing else (log 36). -/
def Obligations.PanelAndToneTimers : Prop :=
  (∀ s : State,
    exec .panelOff s = .next
      (if s.dsp.offLate = true then { s with dsp := { s.dsp with offLate := false } }
      else if s.dsp.power = .dim then { s with dsp := { s.dsp with power := .off, panelOff := none } }
      else s) ∧
    exec .settlingEnd s = .next
      (if s.dsp.power ≠ .settling then s
      else if (s.records .lower).session.active = true ∨ (s.records .upper).session.active = true then
        { s with dsp := { s.dsp with power := .on, settling := none } }
      else { s with dsp := { s.dsp with power := .dim, settling := none, panelOff := some ⟨0, s.cfg.panelOff⟩ } }) ∧
    exec .blinkHalf s = .next { s with dsp := { s.dsp with blinkLit := !s.dsp.blinkLit, blinkCount := 0 } } ∧
    (s.tgn.noteLate = true → exec .toneNoteEnd s = .next { s with tgn := { s.tgn with noteLate := false } }) ∧
    (s.tgn.noteLate = false → s.tgn.current = none → exec .toneNoteEnd s = .next s) ∧
    (∀ t, s.tgn.noteLate = false → s.tgn.current = some t → exec .toneNoteEnd s = .next { s with tgn := { s.tgn with current :=
      match t.notes with
      | _ :: n :: rest => some { t with notes := n :: rest, left := n.steps }
      | _ => none } })) ∧
  ∀ s : State, ∃ x : Panel, exec .displayRefresh s = .next { s with dsp := { s.dsp with panel := x } } ∧
    x.rows.length = 32 ∧ x.segments.length = 40 ∧
    (s.dsp.lampTest = true → x = ⟨List.replicate 32 (List.replicate 48 0xFF), List.replicate 40 true, .full, true⟩) ∧
    (s.dsp.lampTest = false → s.dsp.blank = true ∨ s.dsp.power = .off ∨ s.dsp.power = .settling →
      x.rows = List.replicate 32 (List.replicate 48 0) ∧ x.segments = List.replicate 40 false) ∧
    (s.dsp.lampTest = false → s.dsp.blank = true → x.backlight = .dark) ∧
    (s.dsp.lampTest = false → x.driver = decide (s.dsp.power ≠ .off)) ∧
    (s.dsp.lampTest = false → s.dsp.blank = false →
      x.backlight = (match s.dsp.power with | .on => .full | .dim => .eighth | .off => .dark | .settling => .full)) ∧
    (s.dsp.lampTest = false → s.dsp.blank = false → s.dsp.power = .on ∨ s.dsp.power = .dim →
      (∀ i, i < 32 → x.rows.getD i [] =
        (fun n => ((if i < 16 then (s.region .lower).line1 else (s.region .lower).line2).map fun c =>
            s.glyphRow (s.region .lower).builtin c n) ++
          ((if i < 16 then (s.region .upper).line1 else (s.region .upper).line2).map fun c =>
            s.glyphRow (s.region .upper).builtin c n)) (i % 16)) ∧
      ∀ g, g < 40 → (x.segments.getD g false = true ↔ ∃ k sd i, s.dsp.map[k]? = some (some g) ∧
        (k < 16 ∧ sd = Side.lower ∧ i = k ∨ 16 ≤ k ∧ sd = .upper ∧ i = k - 16) ∧ s.lit sd i = true ∧
        (s.blinks sd i = true → s.dsp.blinkLit = true)))

/-- Tone requests, the audio output and what lights an indicator (R136, R137, R139, R140, R149, R151): a prompt tone always replaces the tone
in play, and an end of its note that falls together with that is noted as overtaken (log 36); a click or reject tone does, but is dropped
under the prompt tone of a SAFETY or FAULT prompt. A tone plays at its own
attenuation and a block of speech at its element's, with 6 steps more under a tone and at most 31; the output is the limited sum of the two
samples, each after its attenuation. 0 steps leave a sample, 31 mute it, and silence stays silence. A step is 2 dB: 1 to 30 steps keep the
sign and leave `10 ^ (-n / 10)` of the magnitude, rounded to a whole number next to it, so that 10, 20 and 30 steps leave a tenth, a
hundredth and a thousandth, and nothing is amplified. The sum is limited to a range that holds silence, and stays as it is within it. How
a magnitude is rounded, the bounds of the range and the tone's waveform are free (log 28). The mute output is driven while neither plays,
as after a reset, and while both do at 31. -/
def Obligations.TonesAndIndicators : Prop :=
  (∀ (s : State) (n : Nat) (sd : Side) (o : Origin),
    (o = .click ∨ o = .reject → s.requestTone n sd o = keyToned s n sd o) ∧
    (∀ c, o = .prompt c → s.requestTone n sd o = { s with tgn := toneReplaced s.tgn (match s.pattern n with
      | [] => none
      | m :: rest => some ⟨m :: rest, o, sd, s.sideLevel sd, m.steps⟩) })) ∧
  (∀ (x : Int) (n : Nat), attenuatedOr none x = 0 ∧ attenuatedOr (some 0) x = x ∧ (31 ≤ n → attenuatedOr (some n) x = 0) ∧
    attenuatedOr (some n) 0 = 0 ∧ limitedOutput 0 = 0 ∧ attenuatedOr (some 10) (10 * x) = x ∧ attenuatedOr (some 20) (100 * x) = x ∧
    attenuatedOr (some 30) (1000 * x) = x ∧ (attenuatedOr (some n) x).natAbs ≤ x.natAbs ∧
    (n ≤ 30 → ∃ k : Nat, k ^ 10 * 10 ^ n ≤ x.natAbs ^ 10 ∧ x.natAbs ^ 10 < (k + 1) ^ 10 * 10 ^ n ∧
      (attenuatedOr (some n) x = x.sign * k ∨
        k ^ 10 * 10 ^ n ≠ x.natAbs ^ 10 ∧ attenuatedOr (some n) x = x.sign * (k + 1)))) ∧
  (∃ low high : Nat, ∀ x : Int, (x < -low → limitedOutput x = -low) ∧ (-low ≤ x → x ≤ high → limitedOutput x = x) ∧
    (high < x → limitedOutput x = high)) ∧
  (∀ s : State,
    (∀ k n, s.audioOut k n = limitedOutput
      (attenuatedOr s.speechAttenuation (s.speechSample k) + attenuatedOr s.toneAttenuation (s.toneSampleAt n))) ∧
    (∀ e k, s.spe.channel = .speaking → s.spe.element = some e → e.at_ = .block k →
      s.speechAttenuation = some (if s.tgn.current = none then min 31 e.level else min 31 (e.level + 6)) ∧
      ∀ i, s.speechSample i = e.samples.getD i 0) ∧
    ((∀ e k, s.spe.channel = .speaking → s.spe.element = some e → e.at_ ≠ .block k) → s.speechAttenuation = none) ∧
    (s.tgn.current = none → s.toneAttenuation = none ∧ ∀ n, s.toneSampleAt n = 0) ∧
    (∀ t, s.tgn.current = some t → s.toneAttenuation = some t.level ∧
      ∀ m rest, t.notes = m :: rest → m.code = 0 → ∀ n, s.toneSampleAt n = 0) ∧
    (s.muteDriven = true ↔ s.speechAttenuation = none ∧ s.toneAttenuation = none ∨
      s.speechAttenuation = some 31 ∧ s.toneAttenuation = some 31)) ∧
  State.reset.muteDriven = true ∧
  ∀ (s : State) (sd : Side) (i : Nat), i < 16 →
    (s.lit sd i = true ↔ (s.region sd).icons.getLsbD i = true ∨
      (i < 8 ∧ (phaseCode (s.records sd).cycle.phase).toNat = i + 1) ∨ (i = 13 ∧ (s.records sd).session.mode ≠ .off) ∨
      (i = 14 ∧ (s.records sd).session.mode = .assist) ∨
      (i = 15 ∧ ((∃ x ∈ s.ptb.prompts, x.side = sd ∧ (x.cls = .safety ∨ x.cls = .fault)) ∨
        (s.records sd).cycle.phase = .fault ∨ (s.region sd).content = .fallback))) ∧
    (s.blinks sd i = true ↔ s.lit sd i = true ∧ ((s.region sd).blink.getLsbD i = true ∨
      (i = 15 ∧ ∃ x ∈ s.ptb.prompts, x.side = sd ∧ x.cls = .safety ∧ x.state ≠ .granted .acknowledged ∧
        x.state ≠ .held .acknowledged)))

/-- BLOCK_END and PAUSE_PIECE_END (R125, R128, R130, R135), and the small steps that a turn goes on with (R40, R41, R43 to R46, R120 to
R131). With no block, or no piece of a pause, in play nothing happens (log 5). Otherwise the element goes on: the next block, the word's
end, what is left of the pause, or a cut for SAFETY; then the channel settles, one small step after the other (log 25). A small step takes
a repeat or span that cannot be spoken as delivered; notes a preemption; starts the element that the index names; goes on with its words;
pins a page; plays, waits for or abandons a block; or ends the element, and with its last one the turn: delivered, lost or preempted, a
repeat timer that a HELP replay stopped starts again, and a replay with the further mark is owed once more (R48). An audition's one phrase
is played the same way; a missing entry or a faulted block ends it with FAIL, its end with PASS (R141, R180). The model's choices and
inferences here: log 17 (a delivery while HELD), log 18 (a repeat in vain), log 21 (a lost or cut replay restarts the repeat timer), log 22
(endings noted for an element's end), log 23 (a phrase clean under a SAFETY cut), log 47 (a page finished at every removal of its pin), log
50 (a replay recorded while a cleared one plays stays pending), log 51 (the replay of an empty span), log 57 (an ending noted for the
element's end that a SAFETY cut comes before). -/
def Obligations.SpeechGoesOn : Prop :=
  (∀ s : State,
    ((∀ e w rest r k, s.spe.channel = .speaking → s.spe.element = some e → e.rest = w :: rest → w.res = some r → e.at_ ≠ .block k) →
      exec .blockEnd s = .next s) ∧
    (∀ e w rest r k, s.spe.channel = .speaking → s.spe.element = some e → e.rest = w :: rest → w.res = some r → e.at_ = .block k →
      ∃ t, exec .blockEnd s = .next t ∧ Presents s t ∧ t.tgn = s.tgn ∧ t.dsp = s.dsp ∧
        (s.sch.safetyCut = false → r.blocks ≤ k + 1 →
          t = (elementAt (blockOver s r k) { wordLeft e with samples := [] }).settle) ∧
        (s.sch.safetyCut = false → k + 1 < r.blocks →
          t = (elementAt (blockOver s r k) { e with at_ := .ready (k + 1), samples := [] }).settle) ∧
        (s.sch.safetyCut = true → t = (turnCut (blockOver s r k)).settle)) ∧
    ((∀ e n, s.spe.channel = .speaking → s.spe.element = some e → e.at_ ≠ .pause n) → exec .pausePieceEnd s = .next s) ∧
    (∀ e n, s.spe.channel = .speaking → s.spe.element = some e → e.at_ = .pause n →
      ∃ t, exec .pausePieceEnd s = .next t ∧ Presents s t ∧ t.tgn = s.tgn ∧ t.dsp = s.dsp ∧
        (s.sch.safetyCut = false → n ≤ 15 → t = (elementAt s { e with at_ := .word }).settle) ∧
        (s.sch.safetyCut = false → 15 < n → t = (elementAt s { e with at_ := .pause (n - 15) }).settle) ∧
        (s.sch.safetyCut = true → t = (turnCut s).settle) ∧
        (15 < n → s.sch.safetyCut = false →
          { s with spe := { s.spe with element := some { e with at_ := .pause (n - 15) } } }.speechStep = none →
          t = { s with spe := { s.spe with element := some { e with at_ := .pause (n - 15) } } }))) ∧
  (∀ s : State, s.settle = State.settleSteps 65536 s ∧ (s.speechStep = none → s.settle = s) ∧
    ∀ n t, s.speechStep = some t → State.settleSteps (n + 1) s = State.settleSteps n t) ∧
  (∀ s : State, s.owesInVain = true → s.speechStep = some (s.setPrompts (s.ptb.prompts.map s.relieved))) ∧
  (∀ (s : State) (x : Prompt),
    (s.speaks x.slot = true → s.relieved x = x) ∧
    (s.speaks x.slot = false →
      (owesTurn s x .first → (s.records x.side).session.mode = .off ∨ s.spe.channel = .silenced ∨
          ((s.records x.side).session.active = false ∧ x.cls ≠ .safety ∧ x.cls ≠ .fault) →
        s.relieved x = { deliveredFirst x (stateDelivered x) with state := .granted (stateDelivered x) }) ∧
      ((s.records x.side).session.mode = .off ∨ s.spe.channel = .silenced →
        (x.state = .granted .awaiting ∨ x.state = .held .awaiting → x.repeatStarted = true → s.relieved x = deliveredAgain x) ∧
        (x.state = .granted .awaiting → x.repeatStarted = false → x.repeatDue = true →
          s.relieved x = deliveredAgain { x with repeatsLeft := x.repeatsLeft - 1 })))) ∧
  (∀ (s : State) (x : Prompt) (k : TurnKind), speakingPrompt s x k → slotsDistinct s →
    (x.cls ≠ .safety → s.sch.safetyCut = false → safetyWaits s →
      s.speechStep = some { s with sch := { s.sch with safetyCut := true, preempt := false } }) ∧
    (x.cls ≠ .safety → s.sch.safetyCut = false → ¬ safetyWaits s → s.sch.preempt = false → higherWaits s x →
      s.speechStep = some { s with sch := { s.sch with preempt := true } }) ∧
    (preemptionNoted s x →
      (s.spe.element = none → s.sch.safetyCut = true → s.speechStep = some (s.preemptTurn x k)) ∧
      (s.spe.element = none → s.sch.safetyCut = false → ∀ e, x.span[x.elemIndex]? = some e →
        s.speechStep = some (elementBegun s x e)) ∧
      (s.spe.element = none → s.sch.safetyCut = false → x.span[x.elemIndex]? = none →
        s.speechStep = some (turnEnded (spanOver s x k) x)) ∧
      ∀ e, s.spe.element = some e →
        (∀ n, e.at_ = .block n ∨ e.at_ = .pause n → s.speechStep = none) ∧
        (∀ n, e.at_ = .word ∨ e.at_ = .ready n → s.sch.safetyCut = true → s.speechStep = some (s.preemptTurn x k)) ∧
        (∀ n, e.at_ = .word ∨ e.at_ = .ready n → s.sch.safetyCut = false → e.rest = [] →
          (s.sch.ending = some .lost → s.speechStep = some (turnEnded (replayLeft s x k) x)) ∧
          (s.sch.ending = none → s.sch.preempt = true → higherWaits s x → s.speechStep = some (s.preemptTurn x k)) ∧
          (s.sch.ending = none → s.sch.preempt = false ∨ ¬ higherWaits s x → x.elemIndex + 1 < x.span.length →
            s.speechStep = some { s.onPrompt x.slot fun y => { y with elemIndex := x.elemIndex + 1 } with
              sch := { s.sch with preempt := false }, spe := { s.spe with element := none } }) ∧
          (s.sch.ending = some .delivered ∨
              s.sch.ending = none ∧ (s.sch.preempt = false ∨ ¬ higherWaits s x) ∧ x.span.length ≤ x.elemIndex + 1 →
            s.speechStep = some (turnEnded (spanOver s x k) x))) ∧
        ∀ w rest, e.rest = w :: rest → s.sch.safetyCut = false →
          (e.at_ = .word → w.res = none → s.speechStep = some (elementAt
            (s.offer x.owner ⟨.phraseFault, some x.side, some x.tag, 1, BitVec.ofNat 16 w.phrase, false⟩) (wordLeft e))) ∧
          ∀ r, w.res = some r →
            (e.at_ = .word → r.blocks = 0 → s.speechStep = some (elementAt s (wordLeft e))) ∧
            (e.at_ = .word → r.blocks ≠ 0 → s.speechStep = some (elementAt s { e with at_ := .ready 0 })) ∧
            ∀ n page, e.at_ = .ready n → page = (r.first + (n + 1) / 8) % 512 →
              (s.spe.pin ≠ some page → s.hasPending page = true → s.speechStep = none) ∧
              (s.spe.pin ≠ some page → s.hasPending page = false →
                s.speechStep = some { s with spe := { s.spe with pin := some page } }) ∧
              (s.spe.pin = some page → fetchedSlot s.spe.prefetch page ((n + 1) % 8) = none → s.speechStep = none) ∧
              ∀ block, s.spe.pin = some page → fetchedSlot s.spe.prefetch page ((n + 1) % 8) = some block →
                (¬ faulted block → s.speechStep = some (elementAt s { e with
                  at_ := .block n, samples := (blockDecoded block).1, sample := (blockDecoded block).2.1
                  stepIndex := (blockDecoded block).2.2 })) ∧
                ∀ u, faulted block → u = (unpinned s).offer x.owner
                    ⟨.phraseFault, some x.side, some x.tag, 2, BitVec.ofNat 16 w.phrase, false⟩ →
                  (s.stu.flag = true → s.speechStep = some (elementAt u (wordLeft e))) ∧
                  (s.stu.flag = false → s.spe.faults < 2 → s.speechStep =
                    some (elementAt { u with spe := { u.spe with faults := s.spe.faults + 1 } } (wordLeft e))) ∧
                  (s.stu.flag = false → 2 ≤ s.spe.faults → s.speechStep = some { turnEnded (spanOver u x k) x with spe :=
                    ⟨.recovering, none, some 0, 0, min 255 (s.spe.resets + 1), [], none⟩ }))) ∧
  (∀ (s : State) (x : Prompt) (k : TurnKind),
    s.preemptTurn x k = channelLastOwned (turnOver (replayCutOff s x k) .idle).relieve.grantTop (some x.owner)) ∧
  (∀ s : State, s.relieve = s.setPrompts (s.ptb.prompts.map s.relieved) ∧
    (s.spe.channel = .idle → s.owesInVain = false → s.grantTop = s.speechStep.getD s)) ∧
  (∀ (x : Int) (i c : Nat) (rest : List Nat),
    decodeCodes x i [] = ([], x, i) ∧
    ∀ (y d : Int) (j : Nat), d = ((12 * 112 ^ i / 100 ^ i) * (2 * (c % 8) + 1) / 8 : Nat) →
      y = max (-32767) (min 32767 (if 8 ≤ c then x - d else x + d)) →
      (c % 8 ≤ 2 → j = i - 1) → (c % 8 = 3 ∨ c % 8 = 4 → j = i) → (c % 8 = 5 → j = min 63 (i + 2)) →
      (c % 8 = 6 → j = min 63 (i + 3)) → (c % 8 = 7 → j = min 63 (i + 5)) →
      decodeCodes x i (c :: rest) = (y :: (decodeCodes y j rest).1, (decodeCodes y j rest).2)) ∧
  ∀ (s : State) (a : Audition), auditionSpeaks s a →
    (s.spe.element = none → s.speechStep = some (auditionBegun s a)) ∧
    ∀ e, s.spe.element = some e →
      (∀ n, e.at_ = .block n ∨ e.at_ = .pause n → s.speechStep = none) ∧
      (∀ n, e.at_ = .word ∨ e.at_ = .ready n → e.rest = [] → s.speechStep = some (auditionOver s .pass)) ∧
      ∀ w rest, e.rest = w :: rest →
        (e.at_ = .word → w.res = none → s.speechStep = some (auditionOver (auditionFaulted s 1 w.phrase) .fail)) ∧
        ∀ r, w.res = some r →
          (e.at_ = .word → r.blocks = 0 → s.speechStep = some (elementAt s (wordLeft e))) ∧
          (e.at_ = .word → r.blocks ≠ 0 → s.speechStep = some (elementAt s { e with at_ := .ready 0 })) ∧
          ∀ n page, e.at_ = .ready n → page = (r.first + (n + 1) / 8) % 512 →
            (s.spe.pin ≠ some page → s.hasPending page = true → s.speechStep = none) ∧
            (s.spe.pin ≠ some page → s.hasPending page = false →
              s.speechStep = some { s with spe := { s.spe with pin := some page } }) ∧
            (s.spe.pin = some page → fetchedSlot s.spe.prefetch page ((n + 1) % 8) = none → s.speechStep = none) ∧
            ∀ block, s.spe.pin = some page → fetchedSlot s.spe.prefetch page ((n + 1) % 8) = some block →
              (¬ faulted block → s.speechStep = some (elementAt s { e with
                at_ := .block n, samples := (blockDecoded block).1, sample := (blockDecoded block).2.1
                stepIndex := (blockDecoded block).2.2 })) ∧
              (faulted block → s.speechStep = some (auditionOver (auditionFaulted s 2 w.phrase) .fail))

/-! ### Invariants -/

/-- Every step keeps the canonical form of the model's own representation of the phrase store (log 30) and of the directory, the tone
patterns (R138) and the font (R148): keys strictly rising, and no entry equal to what an unlisted key reads as. -/
def Obligations.StepKeepsStoreCanonical : Prop :=
  ∀ s t : State, storeCanonical s → step s = .next t → storeCanonical t

/-- Every step keeps the guard of writes, and no step but a whole-part reset changes a byte of the pinned page (R111, R112). -/
def Obligations.StepKeepsPinnedPages : Prop :=
  ∀ s t : State, WritesGuarded s → step s = .next t →
    WritesGuarded t ∧
    (s.pending.head? ≠ some .powerOnReset → s.pending.head? ≠ some .externalReset →
      ∀ pg o, s.spe.pin = some pg → o < 512 → readByte t.psc.memory pg o = readByte s.psc.memory pg o)

/-- Every step keeps ATTN as R169 says, and the notice queues within their bounds (R167). -/
def Obligations.StepKeepsQueues : Prop :=
  (∀ s t : State, attnFollows s → step s = .next t → attnFollows t) ∧
  ∀ s t : State, queuesBounded s → step s = .next t → queuesBounded t

/-- Every step keeps each role on at most one port (R156), the transmit places within their bounds, with a response that waits for the kept
place one of a request in work (R160), and a port without a role
without notices, prompts and holds (R165, R167). -/
def Obligations.StepKeepsPorts : Prop :=
  (∀ s t : State, rolesBoundOnce s → step s = .next t → rolesBoundOnce t) ∧
  (∀ s t : State, placesBounded s → step s = .next t → placesBounded t) ∧
  ∀ s t : State, unboundHoldNothing s → step s = .next t → unboundHoldNothing t

/-- Every step keeps the cycle, session and hold records and the panel power state consistent (R52, R53, R63, R68 to R70, R152). -/
def Obligations.StepKeepsSides : Prop :=
  (∀ s t : State, cyclesConsistent s → step s = .next t → cyclesConsistent t) ∧
  (∀ s t : State, sidesConsistent s → step s = .next t → sidesConsistent t) ∧
  ∀ s t : State, panelConsistent s → step s = .next t → panelConsistent t

/-- Every step keeps the prompt table consistent (R8, R12), the channel SPEAKING exactly while a turn holds it (R28, R119), and every
region's owner a granted prompt of its side with a page record (R34). -/
def Obligations.StepKeepsPrompts : Prop :=
  (∀ s t : State, tableConsistent s → step s = .next t → tableConsistent t) ∧
  (∀ s t : State, speechConsistent s → step s = .next t → speechConsistent t) ∧
  ∀ s t : State, regionsOwned s → step s = .next t → regionsOwned t
end

