-- ==== Sys2Proof/Laws/State.lean ====
section
/-! SUPPORT. Record laws: what each update of the state leaves as it was, one lemma for each field, and reading a record of a side or
of a port after an update. -/

namespace Sys2Proof.Machine

/-! ### Records of a side and of a port -/

/-- Reading a port's value after it was updated. -/
@[simp] theorem PerPort.get_update_same {α : Type} (x : PerPort α) (p : Port) (f : α → α) :
    (x.update p f).get p = f (x.get p) := by cases p <;> rfl

/-- Reading another port's value after an update. -/
theorem PerPort.get_update_ne {α : Type} (x : PerPort α) {p q : Port} (f : α → α) (h : q ≠ p) :
    (x.update p f).get q = x.get q := by cases p <;> cases q <;> first | rfl | exact absurd rfl h

/-- Reading a port's value after an update of one port. -/
theorem PerPort.get_update {α : Type} (x : PerPort α) (p q : Port) (f : α → α) :
    (x.update p f).get q = if q = p then f (x.get q) else x.get q := by cases p <;> cases q <;> rfl

/-- Reading a port's value after an update of every port. -/
@[simp] theorem PerPort.get_mapAll {α β : Type} (x : PerPort α) (f : α → β) (p : Port) :
    (x.mapAll f).get p = f (x.get p) := by cases p <;> rfl

/-- Reading a side's value after it was updated. -/
@[simp] theorem PerSide.get_update_same {α : Type} (x : PerSide α) (sd : Side) (f : α → α) :
    (x.update sd f).get sd = f (x.get sd) := by cases sd <;> rfl

/-- Reading the other side's value after an update. -/
theorem PerSide.get_update_ne {α : Type} (x : PerSide α) {sd sd' : Side} (f : α → α) (h : sd' ≠ sd) :
    (x.update sd f).get sd' = x.get sd' := by cases sd <;> cases sd' <;> first | rfl | exact absurd rfl h

/-- Reading a side's value after an update of one side. -/
theorem PerSide.get_update {α : Type} (x : PerSide α) (sd sd' : Side) (f : α → α) :
    (x.update sd f).get sd' = if sd' = sd then f (x.get sd') else x.get sd' := by cases sd <;> cases sd' <;> rfl

/-- Reading a side's value after an update of both sides. -/
@[simp] theorem PerSide.get_mapAll {α β : Type} (x : PerSide α) (f : α → β) (sd : Side) :
    (x.mapAll f).get sd = f (x.get sd) := by cases sd <;> rfl

/-- Reading a key after it was updated. -/
@[simp] theorem KeyBank.get_update_same (b : KeyBank) (k : Key) (f : KeyRecord → KeyRecord) :
    (b.update k f).get k = f (b.get k) := by cases k <;> rfl

/-- Reading another key after an update. -/
theorem KeyBank.get_update_ne (b : KeyBank) {k k' : Key} (f : KeyRecord → KeyRecord) (h : k' ≠ k) :
    (b.update k f).get k' = b.get k' := by cases k <;> cases k' <;> first | rfl | exact absurd rfl h

/-- Reading a key after an update of every key. -/
@[simp] theorem KeyBank.get_mapAll (b : KeyBank) (f : KeyRecord → KeyRecord) (k : Key) :
    (b.mapAll f).get k = f (b.get k) := by cases k <;> rfl

/-! ### Fields after an update -/

@[simp] theorem State.onLink_lnk (s : State) (p : Port) (f : PortLink → PortLink) :
    (s.onLink p f).lnk = s.lnk.update p f := rfl
@[simp] theorem State.onLink_nq (s : State) (p : Port) (f : PortLink → PortLink) : (s.onLink p f).nq = s.nq := rfl
@[simp] theorem State.onLink_ignoreLeft (s : State) (p : Port) (f : PortLink → PortLink) : (s.onLink p f).ignoreLeft = s.ignoreLeft := rfl
@[simp] theorem State.onLink_cfg (s : State) (p : Port) (f : PortLink → PortLink) : (s.onLink p f).cfg = s.cfg := rfl
@[simp] theorem State.onLink_ptb (s : State) (p : Port) (f : PortLink → PortLink) : (s.onLink p f).ptb = s.ptb := rfl
@[simp] theorem State.onLink_sch (s : State) (p : Port) (f : PortLink → PortLink) : (s.onLink p f).sch = s.sch := rfl
@[simp] theorem State.onLink_scu (s : State) (p : Port) (f : PortLink → PortLink) : (s.onLink p f).scu = s.scu := rfl
@[simp] theorem State.onLink_ksc (s : State) (p : Port) (f : PortLink → PortLink) : (s.onLink p f).ksc = s.ksc := rfl
@[simp] theorem State.onLink_psc (s : State) (p : Port) (f : PortLink → PortLink) : (s.onLink p f).psc = s.psc := rfl
@[simp] theorem State.onLink_spe (s : State) (p : Port) (f : PortLink → PortLink) : (s.onLink p f).spe = s.spe := rfl
@[simp] theorem State.onLink_tgn (s : State) (p : Port) (f : PortLink → PortLink) : (s.onLink p f).tgn = s.tgn := rfl
@[simp] theorem State.onLink_dsp (s : State) (p : Port) (f : PortLink → PortLink) : (s.onLink p f).dsp = s.dsp := rfl
@[simp] theorem State.onLink_stu (s : State) (p : Port) (f : PortLink → PortLink) : (s.onLink p f).stu = s.stu := rfl
@[simp] theorem State.onLink_overtaken (s : State) (p : Port) (f : PortLink → PortLink) : (s.onLink p f).overtaken = s.overtaken := rfl
@[simp] theorem State.onLink_late (s : State) (p : Port) (f : PortLink → PortLink) : (s.onLink p f).late = s.late := rfl
@[simp] theorem State.onLink_pending (s : State) (p : Port) (f : PortLink → PortLink) : (s.onLink p f).pending = s.pending := rfl
@[simp] theorem State.onLink_free (s : State) (p : Port) (f : PortLink → PortLink) : (s.onLink p f).free = s.free := rfl

@[simp] theorem State.onQueue_lnk (s : State) (p : Port) (f : NoticeQueue → NoticeQueue) : (s.onQueue p f).lnk = s.lnk := rfl
@[simp] theorem State.onQueue_nq (s : State) (p : Port) (f : NoticeQueue → NoticeQueue) :
    (s.onQueue p f).nq = s.nq.update p f := rfl
@[simp] theorem State.onQueue_ignoreLeft (s : State) (p : Port) (f : NoticeQueue → NoticeQueue) : (s.onQueue p f).ignoreLeft = s.ignoreLeft := rfl
@[simp] theorem State.onQueue_cfg (s : State) (p : Port) (f : NoticeQueue → NoticeQueue) : (s.onQueue p f).cfg = s.cfg := rfl
@[simp] theorem State.onQueue_ptb (s : State) (p : Port) (f : NoticeQueue → NoticeQueue) : (s.onQueue p f).ptb = s.ptb := rfl
@[simp] theorem State.onQueue_sch (s : State) (p : Port) (f : NoticeQueue → NoticeQueue) : (s.onQueue p f).sch = s.sch := rfl
@[simp] theorem State.onQueue_scu (s : State) (p : Port) (f : NoticeQueue → NoticeQueue) : (s.onQueue p f).scu = s.scu := rfl
@[simp] theorem State.onQueue_ksc (s : State) (p : Port) (f : NoticeQueue → NoticeQueue) : (s.onQueue p f).ksc = s.ksc := rfl
@[simp] theorem State.onQueue_psc (s : State) (p : Port) (f : NoticeQueue → NoticeQueue) : (s.onQueue p f).psc = s.psc := rfl
@[simp] theorem State.onQueue_spe (s : State) (p : Port) (f : NoticeQueue → NoticeQueue) : (s.onQueue p f).spe = s.spe := rfl
@[simp] theorem State.onQueue_tgn (s : State) (p : Port) (f : NoticeQueue → NoticeQueue) : (s.onQueue p f).tgn = s.tgn := rfl
@[simp] theorem State.onQueue_dsp (s : State) (p : Port) (f : NoticeQueue → NoticeQueue) : (s.onQueue p f).dsp = s.dsp := rfl
@[simp] theorem State.onQueue_stu (s : State) (p : Port) (f : NoticeQueue → NoticeQueue) : (s.onQueue p f).stu = s.stu := rfl
@[simp] theorem State.onQueue_overtaken (s : State) (p : Port) (f : NoticeQueue → NoticeQueue) : (s.onQueue p f).overtaken = s.overtaken := rfl
@[simp] theorem State.onQueue_late (s : State) (p : Port) (f : NoticeQueue → NoticeQueue) : (s.onQueue p f).late = s.late := rfl
@[simp] theorem State.onQueue_pending (s : State) (p : Port) (f : NoticeQueue → NoticeQueue) : (s.onQueue p f).pending = s.pending := rfl
@[simp] theorem State.onQueue_free (s : State) (p : Port) (f : NoticeQueue → NoticeQueue) : (s.onQueue p f).free = s.free := rfl

@[simp] theorem State.onSession_lnk (s : State) (sd : Side) (f : Session → Session) : (s.onSession sd f).lnk = s.lnk := rfl
@[simp] theorem State.onSession_nq (s : State) (sd : Side) (f : Session → Session) : (s.onSession sd f).nq = s.nq := rfl
@[simp] theorem State.onSession_ignoreLeft (s : State) (sd : Side) (f : Session → Session) : (s.onSession sd f).ignoreLeft = s.ignoreLeft := rfl
@[simp] theorem State.onSession_cfg (s : State) (sd : Side) (f : Session → Session) : (s.onSession sd f).cfg = s.cfg := rfl
@[simp] theorem State.onSession_ptb (s : State) (sd : Side) (f : Session → Session) : (s.onSession sd f).ptb = s.ptb := rfl
@[simp] theorem State.onSession_sch (s : State) (sd : Side) (f : Session → Session) : (s.onSession sd f).sch = s.sch := rfl
@[simp] theorem State.onSession_scu (s : State) (sd : Side) (f : Session → Session) :
    (s.onSession sd f).scu = s.scu.update sd (fun r => { r with session := f r.session }) := rfl
@[simp] theorem State.onSession_ksc (s : State) (sd : Side) (f : Session → Session) : (s.onSession sd f).ksc = s.ksc := rfl
@[simp] theorem State.onSession_psc (s : State) (sd : Side) (f : Session → Session) : (s.onSession sd f).psc = s.psc := rfl
@[simp] theorem State.onSession_spe (s : State) (sd : Side) (f : Session → Session) : (s.onSession sd f).spe = s.spe := rfl
@[simp] theorem State.onSession_tgn (s : State) (sd : Side) (f : Session → Session) : (s.onSession sd f).tgn = s.tgn := rfl
@[simp] theorem State.onSession_dsp (s : State) (sd : Side) (f : Session → Session) : (s.onSession sd f).dsp = s.dsp := rfl
@[simp] theorem State.onSession_stu (s : State) (sd : Side) (f : Session → Session) : (s.onSession sd f).stu = s.stu := rfl
@[simp] theorem State.onSession_overtaken (s : State) (sd : Side) (f : Session → Session) : (s.onSession sd f).overtaken = s.overtaken := rfl
@[simp] theorem State.onSession_late (s : State) (sd : Side) (f : Session → Session) : (s.onSession sd f).late = s.late := rfl
@[simp] theorem State.onSession_pending (s : State) (sd : Side) (f : Session → Session) : (s.onSession sd f).pending = s.pending := rfl
@[simp] theorem State.onSession_free (s : State) (sd : Side) (f : Session → Session) : (s.onSession sd f).free = s.free := rfl

@[simp] theorem State.onHold_lnk (s : State) (sd : Side) (f : HoldRecord → HoldRecord) : (s.onHold sd f).lnk = s.lnk := rfl
@[simp] theorem State.onHold_nq (s : State) (sd : Side) (f : HoldRecord → HoldRecord) : (s.onHold sd f).nq = s.nq := rfl
@[simp] theorem State.onHold_ignoreLeft (s : State) (sd : Side) (f : HoldRecord → HoldRecord) : (s.onHold sd f).ignoreLeft = s.ignoreLeft := rfl
@[simp] theorem State.onHold_cfg (s : State) (sd : Side) (f : HoldRecord → HoldRecord) : (s.onHold sd f).cfg = s.cfg := rfl
@[simp] theorem State.onHold_ptb (s : State) (sd : Side) (f : HoldRecord → HoldRecord) : (s.onHold sd f).ptb = s.ptb := rfl
@[simp] theorem State.onHold_sch (s : State) (sd : Side) (f : HoldRecord → HoldRecord) : (s.onHold sd f).sch = s.sch := rfl
@[simp] theorem State.onHold_scu (s : State) (sd : Side) (f : HoldRecord → HoldRecord) :
    (s.onHold sd f).scu = s.scu.update sd (fun r => { r with hold := f r.hold }) := rfl
@[simp] theorem State.onHold_ksc (s : State) (sd : Side) (f : HoldRecord → HoldRecord) : (s.onHold sd f).ksc = s.ksc := rfl
@[simp] theorem State.onHold_psc (s : State) (sd : Side) (f : HoldRecord → HoldRecord) : (s.onHold sd f).psc = s.psc := rfl
@[simp] theorem State.onHold_spe (s : State) (sd : Side) (f : HoldRecord → HoldRecord) : (s.onHold sd f).spe = s.spe := rfl
@[simp] theorem State.onHold_tgn (s : State) (sd : Side) (f : HoldRecord → HoldRecord) : (s.onHold sd f).tgn = s.tgn := rfl
@[simp] theorem State.onHold_dsp (s : State) (sd : Side) (f : HoldRecord → HoldRecord) : (s.onHold sd f).dsp = s.dsp := rfl
@[simp] theorem State.onHold_stu (s : State) (sd : Side) (f : HoldRecord → HoldRecord) : (s.onHold sd f).stu = s.stu := rfl
@[simp] theorem State.onHold_overtaken (s : State) (sd : Side) (f : HoldRecord → HoldRecord) : (s.onHold sd f).overtaken = s.overtaken := rfl
@[simp] theorem State.onHold_late (s : State) (sd : Side) (f : HoldRecord → HoldRecord) : (s.onHold sd f).late = s.late := rfl
@[simp] theorem State.onHold_pending (s : State) (sd : Side) (f : HoldRecord → HoldRecord) : (s.onHold sd f).pending = s.pending := rfl
@[simp] theorem State.onHold_free (s : State) (sd : Side) (f : HoldRecord → HoldRecord) : (s.onHold sd f).free = s.free := rfl

@[simp] theorem State.onCycle_lnk (s : State) (sd : Side) (f : Cycle → Cycle) : (s.onCycle sd f).lnk = s.lnk := rfl
@[simp] theorem State.onCycle_nq (s : State) (sd : Side) (f : Cycle → Cycle) : (s.onCycle sd f).nq = s.nq := rfl
@[simp] theorem State.onCycle_ignoreLeft (s : State) (sd : Side) (f : Cycle → Cycle) : (s.onCycle sd f).ignoreLeft = s.ignoreLeft := rfl
@[simp] theorem State.onCycle_cfg (s : State) (sd : Side) (f : Cycle → Cycle) : (s.onCycle sd f).cfg = s.cfg := rfl
@[simp] theorem State.onCycle_ptb (s : State) (sd : Side) (f : Cycle → Cycle) : (s.onCycle sd f).ptb = s.ptb := rfl
@[simp] theorem State.onCycle_sch (s : State) (sd : Side) (f : Cycle → Cycle) : (s.onCycle sd f).sch = s.sch := rfl
@[simp] theorem State.onCycle_scu (s : State) (sd : Side) (f : Cycle → Cycle) :
    (s.onCycle sd f).scu = s.scu.update sd (fun r => { r with cycle := f r.cycle }) := rfl
@[simp] theorem State.onCycle_ksc (s : State) (sd : Side) (f : Cycle → Cycle) : (s.onCycle sd f).ksc = s.ksc := rfl
@[simp] theorem State.onCycle_psc (s : State) (sd : Side) (f : Cycle → Cycle) : (s.onCycle sd f).psc = s.psc := rfl
@[simp] theorem State.onCycle_spe (s : State) (sd : Side) (f : Cycle → Cycle) : (s.onCycle sd f).spe = s.spe := rfl
@[simp] theorem State.onCycle_tgn (s : State) (sd : Side) (f : Cycle → Cycle) : (s.onCycle sd f).tgn = s.tgn := rfl
@[simp] theorem State.onCycle_dsp (s : State) (sd : Side) (f : Cycle → Cycle) : (s.onCycle sd f).dsp = s.dsp := rfl
@[simp] theorem State.onCycle_stu (s : State) (sd : Side) (f : Cycle → Cycle) : (s.onCycle sd f).stu = s.stu := rfl
@[simp] theorem State.onCycle_overtaken (s : State) (sd : Side) (f : Cycle → Cycle) : (s.onCycle sd f).overtaken = s.overtaken := rfl
@[simp] theorem State.onCycle_late (s : State) (sd : Side) (f : Cycle → Cycle) : (s.onCycle sd f).late = s.late := rfl
@[simp] theorem State.onCycle_pending (s : State) (sd : Side) (f : Cycle → Cycle) : (s.onCycle sd f).pending = s.pending := rfl
@[simp] theorem State.onCycle_free (s : State) (sd : Side) (f : Cycle → Cycle) : (s.onCycle sd f).free = s.free := rfl

@[simp] theorem State.onOvertaken_lnk (s : State) (sd : Side) (f : Overtaken → Overtaken) : (s.onOvertaken sd f).lnk = s.lnk := rfl
@[simp] theorem State.onOvertaken_nq (s : State) (sd : Side) (f : Overtaken → Overtaken) : (s.onOvertaken sd f).nq = s.nq := rfl
@[simp] theorem State.onOvertaken_ignoreLeft (s : State) (sd : Side) (f : Overtaken → Overtaken) : (s.onOvertaken sd f).ignoreLeft = s.ignoreLeft := rfl
@[simp] theorem State.onOvertaken_cfg (s : State) (sd : Side) (f : Overtaken → Overtaken) : (s.onOvertaken sd f).cfg = s.cfg := rfl
@[simp] theorem State.onOvertaken_ptb (s : State) (sd : Side) (f : Overtaken → Overtaken) : (s.onOvertaken sd f).ptb = s.ptb := rfl
@[simp] theorem State.onOvertaken_sch (s : State) (sd : Side) (f : Overtaken → Overtaken) : (s.onOvertaken sd f).sch = s.sch := rfl
@[simp] theorem State.onOvertaken_scu (s : State) (sd : Side) (f : Overtaken → Overtaken) : (s.onOvertaken sd f).scu = s.scu := rfl
@[simp] theorem State.onOvertaken_ksc (s : State) (sd : Side) (f : Overtaken → Overtaken) : (s.onOvertaken sd f).ksc = s.ksc := rfl
@[simp] theorem State.onOvertaken_psc (s : State) (sd : Side) (f : Overtaken → Overtaken) : (s.onOvertaken sd f).psc = s.psc := rfl
@[simp] theorem State.onOvertaken_spe (s : State) (sd : Side) (f : Overtaken → Overtaken) : (s.onOvertaken sd f).spe = s.spe := rfl
@[simp] theorem State.onOvertaken_tgn (s : State) (sd : Side) (f : Overtaken → Overtaken) : (s.onOvertaken sd f).tgn = s.tgn := rfl
@[simp] theorem State.onOvertaken_dsp (s : State) (sd : Side) (f : Overtaken → Overtaken) : (s.onOvertaken sd f).dsp = s.dsp := rfl
@[simp] theorem State.onOvertaken_stu (s : State) (sd : Side) (f : Overtaken → Overtaken) : (s.onOvertaken sd f).stu = s.stu := rfl
@[simp] theorem State.onOvertaken_overtaken (s : State) (sd : Side) (f : Overtaken → Overtaken) : (s.onOvertaken sd f).overtaken = s.overtaken.update sd f := rfl
@[simp] theorem State.onOvertaken_late (s : State) (sd : Side) (f : Overtaken → Overtaken) : (s.onOvertaken sd f).late = s.late := rfl
@[simp] theorem State.onOvertaken_pending (s : State) (sd : Side) (f : Overtaken → Overtaken) : (s.onOvertaken sd f).pending = s.pending := rfl
@[simp] theorem State.onOvertaken_free (s : State) (sd : Side) (f : Overtaken → Overtaken) : (s.onOvertaken sd f).free = s.free := rfl

@[simp] theorem State.onSchedule_lnk (s : State) (sd : Side) (f : SideSchedule → SideSchedule) : (s.onSchedule sd f).lnk = s.lnk := rfl
@[simp] theorem State.onSchedule_nq (s : State) (sd : Side) (f : SideSchedule → SideSchedule) : (s.onSchedule sd f).nq = s.nq := rfl
@[simp] theorem State.onSchedule_ignoreLeft (s : State) (sd : Side) (f : SideSchedule → SideSchedule) : (s.onSchedule sd f).ignoreLeft = s.ignoreLeft := rfl
@[simp] theorem State.onSchedule_cfg (s : State) (sd : Side) (f : SideSchedule → SideSchedule) : (s.onSchedule sd f).cfg = s.cfg := rfl
@[simp] theorem State.onSchedule_ptb (s : State) (sd : Side) (f : SideSchedule → SideSchedule) : (s.onSchedule sd f).ptb = s.ptb := rfl
@[simp] theorem State.onSchedule_sch (s : State) (sd : Side) (f : SideSchedule → SideSchedule) :
    (s.onSchedule sd f).sch = { s.sch with sides := s.sch.sides.update sd f } := rfl
@[simp] theorem State.onSchedule_scu (s : State) (sd : Side) (f : SideSchedule → SideSchedule) : (s.onSchedule sd f).scu = s.scu := rfl
@[simp] theorem State.onSchedule_ksc (s : State) (sd : Side) (f : SideSchedule → SideSchedule) : (s.onSchedule sd f).ksc = s.ksc := rfl
@[simp] theorem State.onSchedule_psc (s : State) (sd : Side) (f : SideSchedule → SideSchedule) : (s.onSchedule sd f).psc = s.psc := rfl
@[simp] theorem State.onSchedule_spe (s : State) (sd : Side) (f : SideSchedule → SideSchedule) : (s.onSchedule sd f).spe = s.spe := rfl
@[simp] theorem State.onSchedule_tgn (s : State) (sd : Side) (f : SideSchedule → SideSchedule) : (s.onSchedule sd f).tgn = s.tgn := rfl
@[simp] theorem State.onSchedule_dsp (s : State) (sd : Side) (f : SideSchedule → SideSchedule) : (s.onSchedule sd f).dsp = s.dsp := rfl
@[simp] theorem State.onSchedule_stu (s : State) (sd : Side) (f : SideSchedule → SideSchedule) : (s.onSchedule sd f).stu = s.stu := rfl
@[simp] theorem State.onSchedule_overtaken (s : State) (sd : Side) (f : SideSchedule → SideSchedule) : (s.onSchedule sd f).overtaken = s.overtaken := rfl
@[simp] theorem State.onSchedule_late (s : State) (sd : Side) (f : SideSchedule → SideSchedule) : (s.onSchedule sd f).late = s.late := rfl
@[simp] theorem State.onSchedule_pending (s : State) (sd : Side) (f : SideSchedule → SideSchedule) : (s.onSchedule sd f).pending = s.pending := rfl
@[simp] theorem State.onSchedule_free (s : State) (sd : Side) (f : SideSchedule → SideSchedule) : (s.onSchedule sd f).free = s.free := rfl

@[simp] theorem State.onRegion_lnk (s : State) (sd : Side) (f : Region → Region) : (s.onRegion sd f).lnk = s.lnk := rfl
@[simp] theorem State.onRegion_nq (s : State) (sd : Side) (f : Region → Region) : (s.onRegion sd f).nq = s.nq := rfl
@[simp] theorem State.onRegion_ignoreLeft (s : State) (sd : Side) (f : Region → Region) : (s.onRegion sd f).ignoreLeft = s.ignoreLeft := rfl
@[simp] theorem State.onRegion_cfg (s : State) (sd : Side) (f : Region → Region) : (s.onRegion sd f).cfg = s.cfg := rfl
@[simp] theorem State.onRegion_ptb (s : State) (sd : Side) (f : Region → Region) : (s.onRegion sd f).ptb = s.ptb := rfl
@[simp] theorem State.onRegion_sch (s : State) (sd : Side) (f : Region → Region) : (s.onRegion sd f).sch = s.sch := rfl
@[simp] theorem State.onRegion_scu (s : State) (sd : Side) (f : Region → Region) : (s.onRegion sd f).scu = s.scu := rfl
@[simp] theorem State.onRegion_ksc (s : State) (sd : Side) (f : Region → Region) : (s.onRegion sd f).ksc = s.ksc := rfl
@[simp] theorem State.onRegion_psc (s : State) (sd : Side) (f : Region → Region) : (s.onRegion sd f).psc = s.psc := rfl
@[simp] theorem State.onRegion_spe (s : State) (sd : Side) (f : Region → Region) : (s.onRegion sd f).spe = s.spe := rfl
@[simp] theorem State.onRegion_tgn (s : State) (sd : Side) (f : Region → Region) : (s.onRegion sd f).tgn = s.tgn := rfl
@[simp] theorem State.onRegion_dsp (s : State) (sd : Side) (f : Region → Region) :
    (s.onRegion sd f).dsp = { s.dsp with regions := s.dsp.regions.update sd f } := rfl
@[simp] theorem State.onRegion_stu (s : State) (sd : Side) (f : Region → Region) : (s.onRegion sd f).stu = s.stu := rfl
@[simp] theorem State.onRegion_overtaken (s : State) (sd : Side) (f : Region → Region) : (s.onRegion sd f).overtaken = s.overtaken := rfl
@[simp] theorem State.onRegion_late (s : State) (sd : Side) (f : Region → Region) : (s.onRegion sd f).late = s.late := rfl
@[simp] theorem State.onRegion_pending (s : State) (sd : Side) (f : Region → Region) : (s.onRegion sd f).pending = s.pending := rfl
@[simp] theorem State.onRegion_free (s : State) (sd : Side) (f : Region → Region) : (s.onRegion sd f).free = s.free := rfl

@[simp] theorem State.onPortStore_lnk (s : State) (p : Port) (f : PortStore → PortStore) : (s.onPortStore p f).lnk = s.lnk := rfl
@[simp] theorem State.onPortStore_nq (s : State) (p : Port) (f : PortStore → PortStore) : (s.onPortStore p f).nq = s.nq := rfl
@[simp] theorem State.onPortStore_ignoreLeft (s : State) (p : Port) (f : PortStore → PortStore) : (s.onPortStore p f).ignoreLeft = s.ignoreLeft := rfl
@[simp] theorem State.onPortStore_cfg (s : State) (p : Port) (f : PortStore → PortStore) : (s.onPortStore p f).cfg = s.cfg := rfl
@[simp] theorem State.onPortStore_ptb (s : State) (p : Port) (f : PortStore → PortStore) : (s.onPortStore p f).ptb = s.ptb := rfl
@[simp] theorem State.onPortStore_sch (s : State) (p : Port) (f : PortStore → PortStore) : (s.onPortStore p f).sch = s.sch := rfl
@[simp] theorem State.onPortStore_scu (s : State) (p : Port) (f : PortStore → PortStore) : (s.onPortStore p f).scu = s.scu := rfl
@[simp] theorem State.onPortStore_ksc (s : State) (p : Port) (f : PortStore → PortStore) : (s.onPortStore p f).ksc = s.ksc := rfl
@[simp] theorem State.onPortStore_psc (s : State) (p : Port) (f : PortStore → PortStore) :
    (s.onPortStore p f).psc = { s.psc with ports := s.psc.ports.update p f } := rfl
@[simp] theorem State.onPortStore_spe (s : State) (p : Port) (f : PortStore → PortStore) : (s.onPortStore p f).spe = s.spe := rfl
@[simp] theorem State.onPortStore_tgn (s : State) (p : Port) (f : PortStore → PortStore) : (s.onPortStore p f).tgn = s.tgn := rfl
@[simp] theorem State.onPortStore_dsp (s : State) (p : Port) (f : PortStore → PortStore) : (s.onPortStore p f).dsp = s.dsp := rfl
@[simp] theorem State.onPortStore_stu (s : State) (p : Port) (f : PortStore → PortStore) : (s.onPortStore p f).stu = s.stu := rfl
@[simp] theorem State.onPortStore_overtaken (s : State) (p : Port) (f : PortStore → PortStore) : (s.onPortStore p f).overtaken = s.overtaken := rfl
@[simp] theorem State.onPortStore_late (s : State) (p : Port) (f : PortStore → PortStore) : (s.onPortStore p f).late = s.late := rfl
@[simp] theorem State.onPortStore_pending (s : State) (p : Port) (f : PortStore → PortStore) : (s.onPortStore p f).pending = s.pending := rfl
@[simp] theorem State.onPortStore_free (s : State) (p : Port) (f : PortStore → PortStore) : (s.onPortStore p f).free = s.free := rfl

@[simp] theorem State.onKey_lnk (s : State) (sd : Side) (k : Key) (f : KeyRecord → KeyRecord) : (s.onKey sd k f).lnk = s.lnk := rfl
@[simp] theorem State.onKey_nq (s : State) (sd : Side) (k : Key) (f : KeyRecord → KeyRecord) : (s.onKey sd k f).nq = s.nq := rfl
@[simp] theorem State.onKey_ignoreLeft (s : State) (sd : Side) (k : Key) (f : KeyRecord → KeyRecord) : (s.onKey sd k f).ignoreLeft = s.ignoreLeft := rfl
@[simp] theorem State.onKey_cfg (s : State) (sd : Side) (k : Key) (f : KeyRecord → KeyRecord) : (s.onKey sd k f).cfg = s.cfg := rfl
@[simp] theorem State.onKey_ptb (s : State) (sd : Side) (k : Key) (f : KeyRecord → KeyRecord) : (s.onKey sd k f).ptb = s.ptb := rfl
@[simp] theorem State.onKey_sch (s : State) (sd : Side) (k : Key) (f : KeyRecord → KeyRecord) : (s.onKey sd k f).sch = s.sch := rfl
@[simp] theorem State.onKey_scu (s : State) (sd : Side) (k : Key) (f : KeyRecord → KeyRecord) : (s.onKey sd k f).scu = s.scu := rfl
@[simp] theorem State.onKey_ksc (s : State) (sd : Side) (k : Key) (f : KeyRecord → KeyRecord) :
    (s.onKey sd k f).ksc = { s.ksc with sides := s.ksc.sides.update sd (fun x => { x with keys := x.keys.update k f }) } := rfl
@[simp] theorem State.onKey_psc (s : State) (sd : Side) (k : Key) (f : KeyRecord → KeyRecord) : (s.onKey sd k f).psc = s.psc := rfl
@[simp] theorem State.onKey_spe (s : State) (sd : Side) (k : Key) (f : KeyRecord → KeyRecord) : (s.onKey sd k f).spe = s.spe := rfl
@[simp] theorem State.onKey_tgn (s : State) (sd : Side) (k : Key) (f : KeyRecord → KeyRecord) : (s.onKey sd k f).tgn = s.tgn := rfl
@[simp] theorem State.onKey_dsp (s : State) (sd : Side) (k : Key) (f : KeyRecord → KeyRecord) : (s.onKey sd k f).dsp = s.dsp := rfl
@[simp] theorem State.onKey_stu (s : State) (sd : Side) (k : Key) (f : KeyRecord → KeyRecord) : (s.onKey sd k f).stu = s.stu := rfl
@[simp] theorem State.onKey_overtaken (s : State) (sd : Side) (k : Key) (f : KeyRecord → KeyRecord) : (s.onKey sd k f).overtaken = s.overtaken := rfl
@[simp] theorem State.onKey_late (s : State) (sd : Side) (k : Key) (f : KeyRecord → KeyRecord) : (s.onKey sd k f).late = s.late := rfl
@[simp] theorem State.onKey_pending (s : State) (sd : Side) (k : Key) (f : KeyRecord → KeyRecord) : (s.onKey sd k f).pending = s.pending := rfl
@[simp] theorem State.onKey_free (s : State) (sd : Side) (k : Key) (f : KeyRecord → KeyRecord) : (s.onKey sd k f).free = s.free := rfl

@[simp] theorem State.onKnob_lnk (s : State) (sd : Side) (f : Knob → Knob) : (s.onKnob sd f).lnk = s.lnk := rfl
@[simp] theorem State.onKnob_nq (s : State) (sd : Side) (f : Knob → Knob) : (s.onKnob sd f).nq = s.nq := rfl
@[simp] theorem State.onKnob_ignoreLeft (s : State) (sd : Side) (f : Knob → Knob) : (s.onKnob sd f).ignoreLeft = s.ignoreLeft := rfl
@[simp] theorem State.onKnob_cfg (s : State) (sd : Side) (f : Knob → Knob) : (s.onKnob sd f).cfg = s.cfg := rfl
@[simp] theorem State.onKnob_ptb (s : State) (sd : Side) (f : Knob → Knob) : (s.onKnob sd f).ptb = s.ptb := rfl
@[simp] theorem State.onKnob_sch (s : State) (sd : Side) (f : Knob → Knob) : (s.onKnob sd f).sch = s.sch := rfl
@[simp] theorem State.onKnob_scu (s : State) (sd : Side) (f : Knob → Knob) : (s.onKnob sd f).scu = s.scu := rfl
@[simp] theorem State.onKnob_ksc (s : State) (sd : Side) (f : Knob → Knob) :
    (s.onKnob sd f).ksc = { s.ksc with sides := s.ksc.sides.update sd (fun x => { x with knob := f x.knob }) } := rfl
@[simp] theorem State.onKnob_psc (s : State) (sd : Side) (f : Knob → Knob) : (s.onKnob sd f).psc = s.psc := rfl
@[simp] theorem State.onKnob_spe (s : State) (sd : Side) (f : Knob → Knob) : (s.onKnob sd f).spe = s.spe := rfl
@[simp] theorem State.onKnob_tgn (s : State) (sd : Side) (f : Knob → Knob) : (s.onKnob sd f).tgn = s.tgn := rfl
@[simp] theorem State.onKnob_dsp (s : State) (sd : Side) (f : Knob → Knob) : (s.onKnob sd f).dsp = s.dsp := rfl
@[simp] theorem State.onKnob_stu (s : State) (sd : Side) (f : Knob → Knob) : (s.onKnob sd f).stu = s.stu := rfl
@[simp] theorem State.onKnob_overtaken (s : State) (sd : Side) (f : Knob → Knob) : (s.onKnob sd f).overtaken = s.overtaken := rfl
@[simp] theorem State.onKnob_late (s : State) (sd : Side) (f : Knob → Knob) : (s.onKnob sd f).late = s.late := rfl
@[simp] theorem State.onKnob_pending (s : State) (sd : Side) (f : Knob → Knob) : (s.onKnob sd f).pending = s.pending := rfl
@[simp] theorem State.onKnob_free (s : State) (sd : Side) (f : Knob → Knob) : (s.onKnob sd f).free = s.free := rfl

@[simp] theorem State.setPrompts_lnk (s : State) (l : List Prompt) : (s.setPrompts l).lnk = s.lnk := rfl
@[simp] theorem State.setPrompts_nq (s : State) (l : List Prompt) : (s.setPrompts l).nq = s.nq := rfl
@[simp] theorem State.setPrompts_ignoreLeft (s : State) (l : List Prompt) : (s.setPrompts l).ignoreLeft = s.ignoreLeft := rfl
@[simp] theorem State.setPrompts_cfg (s : State) (l : List Prompt) : (s.setPrompts l).cfg = s.cfg := rfl
@[simp] theorem State.setPrompts_ptb (s : State) (l : List Prompt) :
    (s.setPrompts l).ptb = { s.ptb with prompts := l } := rfl
@[simp] theorem State.setPrompts_sch (s : State) (l : List Prompt) : (s.setPrompts l).sch = s.sch := rfl
@[simp] theorem State.setPrompts_scu (s : State) (l : List Prompt) : (s.setPrompts l).scu = s.scu := rfl
@[simp] theorem State.setPrompts_ksc (s : State) (l : List Prompt) : (s.setPrompts l).ksc = s.ksc := rfl
@[simp] theorem State.setPrompts_psc (s : State) (l : List Prompt) : (s.setPrompts l).psc = s.psc := rfl
@[simp] theorem State.setPrompts_spe (s : State) (l : List Prompt) : (s.setPrompts l).spe = s.spe := rfl
@[simp] theorem State.setPrompts_tgn (s : State) (l : List Prompt) : (s.setPrompts l).tgn = s.tgn := rfl
@[simp] theorem State.setPrompts_dsp (s : State) (l : List Prompt) : (s.setPrompts l).dsp = s.dsp := rfl
@[simp] theorem State.setPrompts_stu (s : State) (l : List Prompt) : (s.setPrompts l).stu = s.stu := rfl
@[simp] theorem State.setPrompts_overtaken (s : State) (l : List Prompt) : (s.setPrompts l).overtaken = s.overtaken := rfl
@[simp] theorem State.setPrompts_late (s : State) (l : List Prompt) : (s.setPrompts l).late = s.late := rfl
@[simp] theorem State.setPrompts_pending (s : State) (l : List Prompt) : (s.setPrompts l).pending = s.pending := rfl
@[simp] theorem State.setPrompts_free (s : State) (l : List Prompt) : (s.setPrompts l).free = s.free := rfl

@[simp] theorem State.onPrompt_lnk (s : State) (n : Nat) (f : Prompt → Prompt) : (s.onPrompt n f).lnk = s.lnk := rfl
@[simp] theorem State.onPrompt_nq (s : State) (n : Nat) (f : Prompt → Prompt) : (s.onPrompt n f).nq = s.nq := rfl
@[simp] theorem State.onPrompt_ignoreLeft (s : State) (n : Nat) (f : Prompt → Prompt) : (s.onPrompt n f).ignoreLeft = s.ignoreLeft := rfl
@[simp] theorem State.onPrompt_cfg (s : State) (n : Nat) (f : Prompt → Prompt) : (s.onPrompt n f).cfg = s.cfg := rfl
@[simp] theorem State.onPrompt_ptb (s : State) (n : Nat) (f : Prompt → Prompt) :
    (s.onPrompt n f).ptb = { s.ptb with prompts := s.ptb.prompts.map fun p => if p.slot = n then f p else p } := rfl
@[simp] theorem State.onPrompt_sch (s : State) (n : Nat) (f : Prompt → Prompt) : (s.onPrompt n f).sch = s.sch := rfl
@[simp] theorem State.onPrompt_scu (s : State) (n : Nat) (f : Prompt → Prompt) : (s.onPrompt n f).scu = s.scu := rfl
@[simp] theorem State.onPrompt_ksc (s : State) (n : Nat) (f : Prompt → Prompt) : (s.onPrompt n f).ksc = s.ksc := rfl
@[simp] theorem State.onPrompt_psc (s : State) (n : Nat) (f : Prompt → Prompt) : (s.onPrompt n f).psc = s.psc := rfl
@[simp] theorem State.onPrompt_spe (s : State) (n : Nat) (f : Prompt → Prompt) : (s.onPrompt n f).spe = s.spe := rfl
@[simp] theorem State.onPrompt_tgn (s : State) (n : Nat) (f : Prompt → Prompt) : (s.onPrompt n f).tgn = s.tgn := rfl
@[simp] theorem State.onPrompt_dsp (s : State) (n : Nat) (f : Prompt → Prompt) : (s.onPrompt n f).dsp = s.dsp := rfl
@[simp] theorem State.onPrompt_stu (s : State) (n : Nat) (f : Prompt → Prompt) : (s.onPrompt n f).stu = s.stu := rfl
@[simp] theorem State.onPrompt_overtaken (s : State) (n : Nat) (f : Prompt → Prompt) : (s.onPrompt n f).overtaken = s.overtaken := rfl
@[simp] theorem State.onPrompt_late (s : State) (n : Nat) (f : Prompt → Prompt) : (s.onPrompt n f).late = s.late := rfl
@[simp] theorem State.onPrompt_pending (s : State) (n : Nat) (f : Prompt → Prompt) : (s.onPrompt n f).pending = s.pending := rfl
@[simp] theorem State.onPrompt_free (s : State) (n : Nat) (f : Prompt → Prompt) : (s.onPrompt n f).free = s.free := rfl

@[simp] theorem State.onElement_lnk (s : State) (f : ElementInPlay → ElementInPlay) : (s.onElement f).lnk = s.lnk := rfl
@[simp] theorem State.onElement_nq (s : State) (f : ElementInPlay → ElementInPlay) : (s.onElement f).nq = s.nq := rfl
@[simp] theorem State.onElement_ignoreLeft (s : State) (f : ElementInPlay → ElementInPlay) : (s.onElement f).ignoreLeft = s.ignoreLeft := rfl
@[simp] theorem State.onElement_cfg (s : State) (f : ElementInPlay → ElementInPlay) : (s.onElement f).cfg = s.cfg := rfl
@[simp] theorem State.onElement_ptb (s : State) (f : ElementInPlay → ElementInPlay) : (s.onElement f).ptb = s.ptb := rfl
@[simp] theorem State.onElement_sch (s : State) (f : ElementInPlay → ElementInPlay) : (s.onElement f).sch = s.sch := rfl
@[simp] theorem State.onElement_scu (s : State) (f : ElementInPlay → ElementInPlay) : (s.onElement f).scu = s.scu := rfl
@[simp] theorem State.onElement_ksc (s : State) (f : ElementInPlay → ElementInPlay) : (s.onElement f).ksc = s.ksc := rfl
@[simp] theorem State.onElement_psc (s : State) (f : ElementInPlay → ElementInPlay) : (s.onElement f).psc = s.psc := rfl
@[simp] theorem State.onElement_spe (s : State) (f : ElementInPlay → ElementInPlay) :
    (s.onElement f).spe = { s.spe with element := s.spe.element.map f } := rfl
@[simp] theorem State.onElement_tgn (s : State) (f : ElementInPlay → ElementInPlay) : (s.onElement f).tgn = s.tgn := rfl
@[simp] theorem State.onElement_dsp (s : State) (f : ElementInPlay → ElementInPlay) : (s.onElement f).dsp = s.dsp := rfl
@[simp] theorem State.onElement_stu (s : State) (f : ElementInPlay → ElementInPlay) : (s.onElement f).stu = s.stu := rfl
@[simp] theorem State.onElement_overtaken (s : State) (f : ElementInPlay → ElementInPlay) : (s.onElement f).overtaken = s.overtaken := rfl
@[simp] theorem State.onElement_late (s : State) (f : ElementInPlay → ElementInPlay) : (s.onElement f).late = s.late := rfl
@[simp] theorem State.onElement_pending (s : State) (f : ElementInPlay → ElementInPlay) : (s.onElement f).pending = s.pending := rfl
@[simp] theorem State.onElement_free (s : State) (f : ElementInPlay → ElementInPlay) : (s.onElement f).free = s.free := rfl

@[simp] theorem State.setLastChannel_lnk (s : State) (o : Option Port) : (s.setLastChannel o).lnk = s.lnk := rfl
@[simp] theorem State.setLastChannel_nq (s : State) (o : Option Port) : (s.setLastChannel o).nq = s.nq := rfl
@[simp] theorem State.setLastChannel_ignoreLeft (s : State) (o : Option Port) : (s.setLastChannel o).ignoreLeft = s.ignoreLeft := rfl
@[simp] theorem State.setLastChannel_cfg (s : State) (o : Option Port) : (s.setLastChannel o).cfg = s.cfg := rfl
@[simp] theorem State.setLastChannel_ptb (s : State) (o : Option Port) : (s.setLastChannel o).ptb = s.ptb := rfl
@[simp] theorem State.setLastChannel_sch (s : State) (o : Option Port) :
    (s.setLastChannel o).sch = { s.sch with lastChannel := o } := rfl
@[simp] theorem State.setLastChannel_scu (s : State) (o : Option Port) : (s.setLastChannel o).scu = s.scu := rfl
@[simp] theorem State.setLastChannel_ksc (s : State) (o : Option Port) : (s.setLastChannel o).ksc = s.ksc := rfl
@[simp] theorem State.setLastChannel_psc (s : State) (o : Option Port) : (s.setLastChannel o).psc = s.psc := rfl
@[simp] theorem State.setLastChannel_spe (s : State) (o : Option Port) : (s.setLastChannel o).spe = s.spe := rfl
@[simp] theorem State.setLastChannel_tgn (s : State) (o : Option Port) : (s.setLastChannel o).tgn = s.tgn := rfl
@[simp] theorem State.setLastChannel_dsp (s : State) (o : Option Port) : (s.setLastChannel o).dsp = s.dsp := rfl
@[simp] theorem State.setLastChannel_stu (s : State) (o : Option Port) : (s.setLastChannel o).stu = s.stu := rfl
@[simp] theorem State.setLastChannel_overtaken (s : State) (o : Option Port) : (s.setLastChannel o).overtaken = s.overtaken := rfl
@[simp] theorem State.setLastChannel_late (s : State) (o : Option Port) : (s.setLastChannel o).late = s.late := rfl
@[simp] theorem State.setLastChannel_pending (s : State) (o : Option Port) : (s.setLastChannel o).pending = s.pending := rfl
@[simp] theorem State.setLastChannel_free (s : State) (o : Option Port) : (s.setLastChannel o).free = s.free := rfl

@[simp] theorem State.beginTransfer_lnk (s : State) (x : Transfer) : (s.beginTransfer x).lnk = s.lnk := rfl
@[simp] theorem State.beginTransfer_nq (s : State) (x : Transfer) : (s.beginTransfer x).nq = s.nq := rfl
@[simp] theorem State.beginTransfer_ignoreLeft (s : State) (x : Transfer) : (s.beginTransfer x).ignoreLeft = s.ignoreLeft := rfl
@[simp] theorem State.beginTransfer_cfg (s : State) (x : Transfer) : (s.beginTransfer x).cfg = s.cfg := rfl
@[simp] theorem State.beginTransfer_ptb (s : State) (x : Transfer) : (s.beginTransfer x).ptb = s.ptb := rfl
@[simp] theorem State.beginTransfer_sch (s : State) (x : Transfer) : (s.beginTransfer x).sch = s.sch := rfl
@[simp] theorem State.beginTransfer_scu (s : State) (x : Transfer) : (s.beginTransfer x).scu = s.scu := rfl
@[simp] theorem State.beginTransfer_ksc (s : State) (x : Transfer) : (s.beginTransfer x).ksc = s.ksc := rfl
@[simp] theorem State.beginTransfer_psc (s : State) (x : Transfer) :
    (s.beginTransfer x).psc = { s.psc with transfer := some x } := rfl
@[simp] theorem State.beginTransfer_spe (s : State) (x : Transfer) : (s.beginTransfer x).spe = s.spe := rfl
@[simp] theorem State.beginTransfer_tgn (s : State) (x : Transfer) : (s.beginTransfer x).tgn = s.tgn := rfl
@[simp] theorem State.beginTransfer_dsp (s : State) (x : Transfer) : (s.beginTransfer x).dsp = s.dsp := rfl
@[simp] theorem State.beginTransfer_stu (s : State) (x : Transfer) : (s.beginTransfer x).stu = s.stu := rfl
@[simp] theorem State.beginTransfer_overtaken (s : State) (x : Transfer) : (s.beginTransfer x).overtaken = s.overtaken := rfl
@[simp] theorem State.beginTransfer_late (s : State) (x : Transfer) : (s.beginTransfer x).late = s.late := rfl
@[simp] theorem State.beginTransfer_pending (s : State) (x : Transfer) : (s.beginTransfer x).pending = s.pending := rfl
@[simp] theorem State.beginTransfer_free (s : State) (x : Transfer) : (s.beginTransfer x).free = s.free := rfl

@[simp] theorem State.served_lnk (s : State) (p : Port) : (s.served p).lnk = s.lnk := rfl
@[simp] theorem State.served_nq (s : State) (p : Port) : (s.served p).nq = s.nq := rfl
@[simp] theorem State.served_ignoreLeft (s : State) (p : Port) : (s.served p).ignoreLeft = s.ignoreLeft := rfl
@[simp] theorem State.served_cfg (s : State) (p : Port) : (s.served p).cfg = s.cfg := rfl
@[simp] theorem State.served_ptb (s : State) (p : Port) : (s.served p).ptb = s.ptb := rfl
@[simp] theorem State.served_sch (s : State) (p : Port) : (s.served p).sch = s.sch := rfl
@[simp] theorem State.served_scu (s : State) (p : Port) : (s.served p).scu = s.scu := rfl
@[simp] theorem State.served_ksc (s : State) (p : Port) : (s.served p).ksc = s.ksc := rfl
@[simp] theorem State.served_psc (s : State) (p : Port) :
    (s.served p).psc = { s.psc with lastServed := some p } := rfl
@[simp] theorem State.served_spe (s : State) (p : Port) : (s.served p).spe = s.spe := rfl
@[simp] theorem State.served_tgn (s : State) (p : Port) : (s.served p).tgn = s.tgn := rfl
@[simp] theorem State.served_dsp (s : State) (p : Port) : (s.served p).dsp = s.dsp := rfl
@[simp] theorem State.served_stu (s : State) (p : Port) : (s.served p).stu = s.stu := rfl
@[simp] theorem State.served_overtaken (s : State) (p : Port) : (s.served p).overtaken = s.overtaken := rfl
@[simp] theorem State.served_late (s : State) (p : Port) : (s.served p).late = s.late := rfl
@[simp] theorem State.served_pending (s : State) (p : Port) : (s.served p).pending = s.pending := rfl
@[simp] theorem State.served_free (s : State) (p : Port) : (s.served p).free = s.free := rfl

@[simp] theorem State.setRunning_lnk (s : State) (r : Running) : (s.setRunning r).lnk = s.lnk := rfl
@[simp] theorem State.setRunning_nq (s : State) (r : Running) : (s.setRunning r).nq = s.nq := rfl
@[simp] theorem State.setRunning_ignoreLeft (s : State) (r : Running) : (s.setRunning r).ignoreLeft = s.ignoreLeft := rfl
@[simp] theorem State.setRunning_cfg (s : State) (r : Running) : (s.setRunning r).cfg = s.cfg := rfl
@[simp] theorem State.setRunning_ptb (s : State) (r : Running) : (s.setRunning r).ptb = s.ptb := rfl
@[simp] theorem State.setRunning_sch (s : State) (r : Running) : (s.setRunning r).sch = s.sch := rfl
@[simp] theorem State.setRunning_scu (s : State) (r : Running) : (s.setRunning r).scu = s.scu := rfl
@[simp] theorem State.setRunning_ksc (s : State) (r : Running) : (s.setRunning r).ksc = s.ksc := rfl
@[simp] theorem State.setRunning_psc (s : State) (r : Running) : (s.setRunning r).psc = s.psc := rfl
@[simp] theorem State.setRunning_spe (s : State) (r : Running) : (s.setRunning r).spe = s.spe := rfl
@[simp] theorem State.setRunning_tgn (s : State) (r : Running) : (s.setRunning r).tgn = s.tgn := rfl
@[simp] theorem State.setRunning_dsp (s : State) (r : Running) : (s.setRunning r).dsp = s.dsp := rfl
@[simp] theorem State.setRunning_stu (s : State) (r : Running) :
    (s.setRunning r).stu = { s.stu with result := .running r } := rfl
@[simp] theorem State.setRunning_overtaken (s : State) (r : Running) : (s.setRunning r).overtaken = s.overtaken := rfl
@[simp] theorem State.setRunning_late (s : State) (r : Running) : (s.setRunning r).late = s.late := rfl
@[simp] theorem State.setRunning_pending (s : State) (r : Running) : (s.setRunning r).pending = s.pending := rfl
@[simp] theorem State.setRunning_free (s : State) (r : Running) : (s.setRunning r).free = s.free := rfl

@[simp] theorem State.withQueue_lnk (s : State) (l : List Instr) : (s.withQueue l).lnk = s.lnk := rfl
@[simp] theorem State.withQueue_nq (s : State) (l : List Instr) : (s.withQueue l).nq = s.nq := rfl
@[simp] theorem State.withQueue_ignoreLeft (s : State) (l : List Instr) : (s.withQueue l).ignoreLeft = s.ignoreLeft := rfl
@[simp] theorem State.withQueue_cfg (s : State) (l : List Instr) : (s.withQueue l).cfg = s.cfg := rfl
@[simp] theorem State.withQueue_ptb (s : State) (l : List Instr) : (s.withQueue l).ptb = s.ptb := rfl
@[simp] theorem State.withQueue_sch (s : State) (l : List Instr) : (s.withQueue l).sch = s.sch := rfl
@[simp] theorem State.withQueue_scu (s : State) (l : List Instr) : (s.withQueue l).scu = s.scu := rfl
@[simp] theorem State.withQueue_ksc (s : State) (l : List Instr) : (s.withQueue l).ksc = s.ksc := rfl
@[simp] theorem State.withQueue_psc (s : State) (l : List Instr) : (s.withQueue l).psc = s.psc := rfl
@[simp] theorem State.withQueue_spe (s : State) (l : List Instr) : (s.withQueue l).spe = s.spe := rfl
@[simp] theorem State.withQueue_tgn (s : State) (l : List Instr) : (s.withQueue l).tgn = s.tgn := rfl
@[simp] theorem State.withQueue_dsp (s : State) (l : List Instr) : (s.withQueue l).dsp = s.dsp := rfl
@[simp] theorem State.withQueue_stu (s : State) (l : List Instr) : (s.withQueue l).stu = s.stu := rfl
@[simp] theorem State.withQueue_overtaken (s : State) (l : List Instr) : (s.withQueue l).overtaken = s.overtaken := rfl
@[simp] theorem State.withQueue_late (s : State) (l : List Instr) : (s.withQueue l).late = s.late := rfl
@[simp] theorem State.withQueue_pending (s : State) (l : List Instr) :
    (s.withQueue l).pending = l := rfl
@[simp] theorem State.withQueue_free (s : State) (l : List Instr) : (s.withQueue l).free = s.free := rfl

/-! ### Records after an update -/

@[simp] theorem State.link_onLink (s : State) (p : Port) (f : PortLink → PortLink) :
    (s.onLink p f).link p = f (s.link p) := PerPort.get_update_same _ _ _

theorem State.link_onLink_ne (s : State) {p q : Port} (f : PortLink → PortLink) (h : q ≠ p) :
    (s.onLink p f).link q = s.link q := PerPort.get_update_ne _ _ h

@[simp] theorem State.records_onSession (s : State) (sd : Side) (f : Session → Session) :
    (s.onSession sd f).records sd = { s.records sd with session := f (s.records sd).session } :=
  PerSide.get_update_same _ _ _

@[simp] theorem State.records_onHold (s : State) (sd : Side) (f : HoldRecord → HoldRecord) :
    (s.onHold sd f).records sd = { s.records sd with hold := f (s.records sd).hold } := PerSide.get_update_same _ _ _

@[simp] theorem State.records_onCycle (s : State) (sd : Side) (f : Cycle → Cycle) :
    (s.onCycle sd f).records sd = { s.records sd with cycle := f (s.records sd).cycle } := PerSide.get_update_same _ _ _

@[simp] theorem State.schedule_onSchedule (s : State) (sd : Side) (f : SideSchedule → SideSchedule) :
    (s.onSchedule sd f).schedule sd = f (s.schedule sd) := PerSide.get_update_same _ _ _

@[simp] theorem State.region_onRegion (s : State) (sd : Side) (f : Region → Region) :
    (s.onRegion sd f).region sd = f (s.region sd) := PerSide.get_update_same _ _ _

@[simp] theorem State.portStore_onPortStore (s : State) (p : Port) (f : PortStore → PortStore) :
    (s.onPortStore p f).portStore p = f (s.portStore p) := PerPort.get_update_same _ _ _

@[simp] theorem State.keyRecord_onKey (s : State) (sd : Side) (k : Key) (f : KeyRecord → KeyRecord) :
    (s.onKey sd k f).keyRecord sd k = f (s.keyRecord sd k) := by cases sd <;> cases k <;> rfl

end Sys2Proof.Machine
end

