-- ==== Sys2Proof/Laws/Memory.lean ====
section
/-! SUPPORT. The sparse lists in canonical form, the phrase store among them: what a write leaves readable, and that every write
keeps the form. -/

namespace Sys2Proof.Machine

variable {β : Type}

/-- Every key of a list lies above a bound. -/
def keysAbove (n : Nat) (m : List (Nat × β)) : Bool := m.all fun x => decide (n < x.1)

theorem keysAbove_mono {n k : Nat} (h : n < k) {m : List (Nat × β)} (hk : keysAbove k m = true) : keysAbove n m = true := by
  simp only [keysAbove, List.all_eq_true, decide_eq_true_eq] at *
  exact fun x hx => lt_trans h (hk x hx)

theorem mapGet_of_keysAbove (d : β) {n : Nat} : ∀ {m : List (Nat × β)}, keysAbove n m = true → mapGet d m n = d
  | [], _ => rfl
  | e :: rest, h => by
    simp only [keysAbove, List.all_cons, Bool.and_eq_true, decide_eq_true_eq] at h
    have hn : ¬ e.1 = n := by omega
    simp only [mapGet, hn, if_false]
    exact mapGet_of_keysAbove d h.2

section
variable [DecidableEq β]

theorem mapWf_cons (d : β) (e : Nat × β) (rest : List (Nat × β)) :
    mapWf d (e :: rest) = true ↔ e.2 ≠ d ∧ keysAbove e.1 rest = true ∧ mapWf d rest = true := by
  simp [mapWf, keysAbove, and_assoc]

/-! ### Reading after a write -/

omit [DecidableEq β] in
theorem mapGet_mapInsert (d : β) (n k : Nat) (v : β) :
    ∀ m : List (Nat × β), mapGet d (mapInsert m n v) k = if k = n then v else mapGet d m k
  | [] => by
    by_cases h : k = n
    · simp [mapInsert, mapGet, h]
    · simp [mapInsert, mapGet, h, Ne.symm h]
  | e :: rest => by
    have ih := mapGet_mapInsert d n k v rest
    unfold mapInsert
    by_cases h1 : n < e.1
    · by_cases h : k = n
      · simp [h1, mapGet, h]
      · simp [h1, mapGet, h, Ne.symm h]
    · by_cases h2 : e.1 = n
      · by_cases h : k = n
        · simp [h2, mapGet, h]
        · simp [h2, mapGet, h, Ne.symm h]
      · by_cases h3 : e.1 = k
        · have h4 : ¬ k = n := fun hk => h2 (h3.trans hk)
          rw [if_neg h1, if_neg h2, if_neg h4]; simp [mapGet, h3]
        · rw [if_neg h1, if_neg h2]; simp only [mapGet, h3, if_false, ih]

theorem mapGet_mapErase (d : β) (n k : Nat) :
    ∀ m : List (Nat × β), mapWf d m = true → mapGet d (mapErase m n) k = if k = n then d else mapGet d m k
  | [], _ => by simp [mapErase, mapGet]
  | e :: rest, h => by
    obtain ⟨_, ha, hw⟩ := (mapWf_cons d e rest).1 h
    have ih := mapGet_mapErase d n k rest hw
    unfold mapErase
    by_cases h2 : e.1 = n
    · by_cases hk : k = n
      · subst h2; simp [hk, mapGet_of_keysAbove d ha]
      · have : ¬ e.1 = k := fun he => hk (he.symm.trans h2)
        simp only [h2, if_true, hk, if_false, mapGet]
        rw [if_neg (fun he => hk he.symm)]
    · by_cases h3 : e.1 = k
      · have h4 : ¬ k = n := fun hk => h2 (h3.trans hk)
        rw [if_neg h2, if_neg h4]; simp [mapGet, h3]
      · rw [if_neg h2]; simp only [mapGet, h3, if_false, ih]

/-- A read of a sparse list after a write of it. -/
theorem mapGet_mapPut (d : β) (m : List (Nat × β)) (n k : Nat) (v : β) (h : mapWf d m = true) :
    mapGet d (mapPut d m n v) k = if k = n then v else mapGet d m k := by
  unfold mapPut
  by_cases hv : v = d
  · rw [if_pos hv, mapGet_mapErase d n k m h, hv]
  · rw [if_neg hv, mapGet_mapInsert]

/-! ### The canonical form is kept -/

omit [DecidableEq β] in
theorem keysAbove_mapErase {b : Nat} (n : Nat) : ∀ m : List (Nat × β), keysAbove b m = true → keysAbove b (mapErase m n) = true
  | [], h => h
  | e :: rest, h => by
    simp only [keysAbove, List.all_cons, Bool.and_eq_true] at h
    unfold mapErase
    by_cases h2 : e.1 = n
    · simpa [h2, keysAbove] using h.2
    · simp only [h2, if_false, keysAbove, List.all_cons, Bool.and_eq_true]
      exact ⟨h.1, keysAbove_mapErase n rest h.2⟩

omit [DecidableEq β] in
theorem keysAbove_mapInsert {b n : Nat} (v : β) (hb : b < n) :
    ∀ m : List (Nat × β), keysAbove b m = true → keysAbove b (mapInsert m n v) = true
  | [], _ => by simp [mapInsert, keysAbove, hb]
  | e :: rest, h => by
    simp only [keysAbove, List.all_cons, Bool.and_eq_true] at h
    unfold mapInsert
    by_cases h1 : n < e.1
    · simp only [h1, if_true, keysAbove, List.all_cons, Bool.and_eq_true]
      exact ⟨by simpa using hb, h.1, h.2⟩
    · by_cases h2 : e.1 = n
      · rw [if_neg h1, if_pos h2]
        simp only [keysAbove, List.all_cons, Bool.and_eq_true]
        exact ⟨by simpa using hb, h.2⟩
      · rw [if_neg h1, if_neg h2]
        simp only [keysAbove, List.all_cons, Bool.and_eq_true]
        exact ⟨h.1, keysAbove_mapInsert v hb rest h.2⟩

theorem mapWf_mapErase (d : β) (n : Nat) : ∀ m : List (Nat × β), mapWf d m = true → mapWf d (mapErase m n) = true
  | [], h => h
  | e :: rest, h => by
    obtain ⟨hv, ha, hw⟩ := (mapWf_cons d e rest).1 h
    unfold mapErase
    by_cases h2 : e.1 = n
    · simpa [h2] using hw
    · simp only [h2, if_false]
      exact (mapWf_cons d e _).2 ⟨hv, keysAbove_mapErase n rest ha, mapWf_mapErase d n rest hw⟩

theorem mapWf_mapInsert (d : β) (n : Nat) (v : β) (hv : v ≠ d) :
    ∀ m : List (Nat × β), mapWf d m = true → mapWf d (mapInsert m n v) = true
  | [], _ => (mapWf_cons d (n, v) []).2 ⟨hv, rfl, rfl⟩
  | e :: rest, h => by
    obtain ⟨he, ha, hw⟩ := (mapWf_cons d e rest).1 h
    unfold mapInsert
    by_cases h1 : n < e.1
    · simp only [h1, if_true]
      refine (mapWf_cons d _ _).2 ⟨hv, ?_, h⟩
      simp only [keysAbove, List.all_cons, Bool.and_eq_true]
      exact ⟨by simpa using h1, keysAbove_mono h1 ha⟩
    · by_cases h2 : e.1 = n
      · rw [if_neg h1, if_pos h2]
        exact (mapWf_cons d _ _).2 ⟨hv, by rw [← h2]; exact ha, hw⟩
      · rw [if_neg h1, if_neg h2]
        exact (mapWf_cons d e _).2 ⟨he, keysAbove_mapInsert v (by omega) rest ha, mapWf_mapInsert d n v hv rest hw⟩

/-- A write of a sparse list keeps its canonical form. -/
theorem mapWf_mapPut (d : β) (m : List (Nat × β)) (n : Nat) (v : β) (h : mapWf d m = true) : mapWf d (mapPut d m n v) = true := by
  unfold mapPut
  by_cases hv : v = d
  · rw [if_pos hv]; exact mapWf_mapErase d n m h
  · rw [if_neg hv]; exact mapWf_mapInsert d n v hv m h

end

/-! ### The phrase store -/

/-- A byte written keeps the store's canonical form. -/
theorem Memory.wf_writeByte {m : Memory} (page offset : Nat) (v : Byte) (h : Memory.wf m = true) :
    Memory.wf (writeByte m page offset v) = true := mapWf_mapPut _ _ _ _ h

/-- Bytes written keep the store's canonical form. -/
theorem Memory.wf_writeBytes (page : Nat) :
    ∀ (l : List Byte) (m : Memory) (offset : Nat), Memory.wf m = true → Memory.wf (writeBytes m page offset l) = true
  | [], _, _, h => h
  | v :: rest, m, offset, h => wf_writeBytes page rest _ _ (wf_writeByte page offset v h)

/-- A byte of the store after one byte was written, by the keys of the two. -/
theorem readByte_writeByte {m : Memory} (h : Memory.wf m = true) (page offset page' offset' : Nat) (v : Byte) :
    readByte (writeByte m page offset v) page' offset' =
      if storeKey page' offset' = storeKey page offset then v else readByte m page' offset' :=
  mapGet_mapPut _ _ _ _ _ h

/-- A byte of the store after bytes were written from an offset on: those bytes hold what was written, every other byte what it
held. -/
theorem readByte_writeBytes (page : Nat) (k : Nat) :
    ∀ (l : List Byte) (m : Memory) (offset : Nat), Memory.wf m = true →
      mapGet unlistedByte (writeBytes m page offset l) k =
        if storeKey page offset ≤ k ∧ k < storeKey page offset + l.length then l.getD (k - storeKey page offset) 0
        else mapGet unlistedByte m k
  | [], m, offset, _ => by
    have h : ¬ (storeKey page offset ≤ k ∧ k < storeKey page offset + ([] : List Byte).length) := by simp
    rw [if_neg h]; rfl
  | v :: rest, m, offset, h => by
    have ih := readByte_writeBytes page k rest _ (offset + 1) (Memory.wf_writeByte page offset v h)
    have hs : storeKey page (offset + 1) = storeKey page offset + 1 := by simp [storeKey, Nat.add_assoc]
    have hw : mapGet unlistedByte (writeByte m page offset v) k =
        if k = storeKey page offset then v else mapGet unlistedByte m k := mapGet_mapPut _ _ _ _ _ h
    show mapGet unlistedByte (writeBytes (writeByte m page offset v) page (offset + 1) rest) k = _
    rw [ih, hs, hw, List.length_cons]
    generalize storeKey page offset = a
    by_cases h1 : k = a
    · subst h1
      rw [if_neg (by omega), if_pos rfl, if_pos (by omega)]; simp
    · by_cases h2 : a + 1 ≤ k ∧ k < a + 1 + rest.length
      · rw [if_pos h2, if_pos (by omega)]
        obtain ⟨j, rfl⟩ : ∃ j, k = a + 1 + j := ⟨k - (a + 1), by omega⟩
        have e1 : a + 1 + j - (a + 1) = j := by omega
        have e2 : a + 1 + j - a = j + 1 := by omega
        rw [e1, e2]; rfl
      · rw [if_neg h2, if_neg h1, if_neg (by omega)]

end Sys2Proof.Machine
end

