-- ==== Sys2Proof/Laws/Output.lean ====
section
/-! SUPPORT. What an attenuation makes of a sample, and what the limit makes of a sum (R136, R137). -/

namespace Sys2Proof.Machine

/-- What the search bit by bit finds has the property, where its start has; the next value has not, where the search's end has not. -/
theorem greatestFrom_spec (holds : Nat → Bool) : ∀ (bits k : Nat), holds k = true → holds (k + 2 ^ bits) = false →
    holds (greatestFrom holds bits k) = true ∧ holds (greatestFrom holds bits k + 1) = false
  | 0, _, h, h' => ⟨h, h'⟩
  | bits + 1, k, h, h' => by
    unfold greatestFrom
    by_cases c : holds (k + 2 ^ bits) = true
    · rw [if_pos c]
      exact greatestFrom_spec holds bits _ c (by rw [Nat.add_assoc, ← Nat.two_mul, ← Nat.pow_succ']; exact h')
    · rw [if_neg c]
      exact greatestFrom_spec holds bits k h (Bool.eq_false_iff.2 c)

/-- The magnitude rounded down: it is at most `m * 10 ^ (-n / 10)`, and the next one is more. -/
theorem attenuatedDown_spec (n m : Nat) :
    attenuatedDown n m ^ 10 * 10 ^ n ≤ m ^ 10 ∧ m ^ 10 < (attenuatedDown n m + 1) ^ 10 * 10 ^ n := by
  have h := greatestFrom_spec (withinSteps n m) (Nat.log2 m + 1) 0 (by simp [withinSteps])
    (by
      have a : m ^ 10 < (2 ^ (Nat.log2 m + 1)) ^ 10 := Nat.pow_lt_pow_left Nat.lt_log2_self (by decide)
      have b : (2 ^ (Nat.log2 m + 1)) ^ 10 ≤ (2 ^ (Nat.log2 m + 1)) ^ 10 * 10 ^ n :=
        Nat.le_mul_of_pos_right _ (Nat.pow_pos (by decide))
      simp only [withinSteps, Nat.zero_add, decide_eq_false_iff_not, not_le]
      exact lt_of_lt_of_le a b)
  simpa [attenuatedDown, withinSteps] using h

/-- The magnitude is the one rounded down or, where that is not exact, the next. -/
theorem attenuatedMagnitude_cases (n : Nat) (x : Int) : attenuatedMagnitude n x = attenuatedDown n x.natAbs ∨
    attenuatedDown n x.natAbs ^ 10 * 10 ^ n ≠ x.natAbs ^ 10 ∧ attenuatedMagnitude n x = attenuatedDown n x.natAbs + 1 := by
  unfold attenuatedMagnitude
  simp only
  split
  · exact .inl rfl
  · rename_i h
    split
    · exact .inr ⟨h, rfl⟩
    · exact .inl rfl

/-- Where the attenuated magnitude is a whole number, it is that number. -/
theorem attenuatedMagnitude_exact {n k : Nat} {x : Int} (h : k ^ 10 * 10 ^ n = x.natAbs ^ 10) : attenuatedMagnitude n x = k := by
  have hp : 0 < 10 ^ n := Nat.pow_pos (by decide)
  have hs := attenuatedDown_spec n x.natAbs
  rw [← h] at hs
  have h1 := (Nat.pow_le_pow_iff_left (by decide)).1 (Nat.le_of_mul_le_mul_right hs.1 hp)
  have h2 := (Nat.pow_lt_pow_iff_left (by decide)).1 (Nat.lt_of_mul_lt_mul_right hs.2)
  have e : attenuatedDown n x.natAbs = k := by omega
  rcases attenuatedMagnitude_cases n x with c | ⟨c, _⟩
  · rw [c, e]
  · rw [e] at c
    exact absurd h c

/-- An attenuation does not amplify. -/
theorem attenuatedMagnitude_le (n : Nat) (x : Int) : attenuatedMagnitude n x ≤ x.natAbs := by
  have hs := (attenuatedDown_spec n x.natAbs).1
  have hk : attenuatedDown n x.natAbs ^ 10 ≤ attenuatedDown n x.natAbs ^ 10 * 10 ^ n := Nat.le_mul_of_pos_right _ (Nat.pow_pos (by decide))
  rcases attenuatedMagnitude_cases n x with c | ⟨h, c⟩
  · rw [c]
    exact (Nat.pow_le_pow_iff_left (by decide)).1 (Nat.le_trans hk hs)
  · rw [c]
    exact (Nat.pow_lt_pow_iff_left (by decide)).1 (Nat.lt_of_le_of_lt hk (Nat.lt_of_le_of_ne hs h))

/-- Silence stays within every range. -/
theorem limitedOutput_zero : limitedOutput 0 = 0 := by
  unfold limitedOutput
  omega

end Sys2Proof.Machine
end

