-- ==== Sys2Proof/Laws/Presents.lean ====
section
/-! SUPPORT. Presentation changes nothing but presentation: one lemma for each operation of scheduling, speech, tones and renders
says that it stays within the relation Presents. -/

namespace Sys2Proof.Machine

/-! ### The relation -/

theorem NoticeQueue.offered_append (q : NoticeQueue) (a b : List Notice) : q.offered (a ++ b) = (q.offered a).offered b :=
  List.foldl_append

/-- The pending writes of a page are read from the links and the buffers alone, whatever a buffer's condition short of under way. -/
theorem State.hasPending_congr {s t : State} (hl : ∀ p, (t.link p).inWork = (s.link p).inWork)
    (hp : ∀ p, (t.psc.ports.get p).plain = (s.psc.ports.get p).plain) (page : Nat) : t.hasPending page = s.hasPending page := by
  have h1 : ∀ p, directPending (t.link p) page = directPending (s.link p) page := fun p => by unfold directPending; rw [hl p]
  have h2 : ∀ x : PortStore, postedPending x page = postedPending x.plain page := fun x => by
    unfold postedPending PortStore.plain
    cases x.posted <;> rfl
  have h3 : ∀ p, postedPending (t.portStore p) page = postedPending (s.portStore p) page := fun p => by
    rw [h2, h2 (s.portStore p)]; exact congrArg (fun x => postedPending x page) (hp p)
  unfold State.hasPending
  congr 1
  funext p
  rw [h1, h3]

theorem Presents.refl (s : State) : Presents s s := by
  constructor <;> intros <;> first | rfl | exact ⟨[], rfl, fun _ => rfl⟩ | exact .inl ‹_› | exact ⟨[], by simp⟩

theorem Presents.trans {s t u : State} (h : Presents s t) (k : Presents t u) : Presents s u where
  lnk := k.lnk.trans h.lnk
  ignoreLeft := k.ignoreLeft.trans h.ignoreLeft
  cfg := k.cfg.trans h.cfg
  scu := k.scu.trans h.scu
  ksc := k.ksc.trans h.ksc
  pending := k.pending.trans h.pending
  free := k.free.trans h.free
  counter := k.counter.trans h.counter
  prompts := k.prompts.trans h.prompts
  queues p := by
    obtain ⟨a, ha, ha'⟩ := h.queues p
    obtain ⟨b, hb, hb'⟩ := k.queues p
    refine ⟨a ++ b, by rw [hb, ha, NoticeQueue.offered_append], fun hr => ?_⟩
    have hr' : (t.link p).role = none := by unfold State.link; rw [h.lnk]; exact hr
    rw [ha' hr, hb' hr']; rfl
  memory := k.memory.trans h.memory
  directory := k.directory.trans h.directory
  lastServed := k.lastServed.trans h.lastServed
  transfer := k.transfer.trans h.transfer
  ports p := (k.ports p).trans (h.ports p)
  pin page hu := by
    rcases k.pin page hu with ht | ht
    · exact h.pin page ht
    · refine .inr ?_
      rw [← ht]
      exact (State.hasPending_congr (fun p => by unfold State.link; rw [h.lnk]) h.ports page).symm
  patterns := k.patterns.trans h.patterns
  display := by
    have e1 := h.display
    have e2 := k.display
    rw [← e1, ← e2]
  flag := k.flag.trans h.flag
  result := k.result.trans h.result
  checked := k.checked.trans h.checked
  overtaken := k.overtaken.trans h.overtaken
  late := by
    obtain ⟨a, ha⟩ := h.late
    obtain ⟨b, hb⟩ := k.late
    exact ⟨a ++ b, by rw [hb, ha]; simp⟩

/-- A change that touches only the Scheduler, the Speech Engine, the current tone with its note's end, the regions and the audition. -/
theorem Presents.of_presentation (s : State) (sch : Scheduler) (spe : SpeechEngine) (tone : Option Tone) (late : Bool)
    (g : PerSide Region) (a : Option Audition)
    (hp : ∀ page, spe.pin = some page → s.spe.pin = some page ∨ s.hasPending page = false := by intro _ h; exact .inl h) :
    Presents s { s with
      sch := sch, spe := spe, tgn := ⟨s.tgn.patterns, tone, late⟩, dsp := { s.dsp with regions := g }
      stu := { s.stu with audition := a } } := by
  constructor <;> intros <;> first | rfl | exact ⟨[], rfl, fun _ => rfl⟩ | exact hp _ ‹_› | exact ⟨[], by simp⟩

theorem Presents.of_sch (s : State) (x : Scheduler) : Presents s { s with sch := x } :=
  .of_presentation s x s.spe s.tgn.current s.tgn.noteLate s.dsp.regions s.stu.audition

theorem Presents.of_spe (s : State) (x : SpeechEngine)
    (hp : ∀ page, x.pin = some page → s.spe.pin = some page ∨ s.hasPending page = false := by intro _ h; exact .inl h) :
    Presents s { s with spe := x } :=
  .of_presentation s s.sch x s.tgn.current s.tgn.noteLate s.dsp.regions s.stu.audition hp

theorem Presents.of_tone (s : State) (c : Option Tone) (late : Bool) : Presents s { s with tgn := ⟨s.tgn.patterns, c, late⟩ } :=
  .of_presentation s s.sch s.spe c late s.dsp.regions s.stu.audition

theorem Presents.of_audition (s : State) (a : Option Audition) : Presents s { s with stu := { s.stu with audition := a } } :=
  .of_presentation s s.sch s.spe s.tgn.current s.tgn.noteLate s.dsp.regions a

theorem Presents.onRegion (s : State) (sd : Side) (f : Region → Region) : Presents s (s.onRegion sd f) :=
  .of_presentation s s.sch s.spe s.tgn.current s.tgn.noteLate (s.dsp.regions.update sd f) s.stu.audition

theorem Presents.onSchedule (s : State) (sd : Side) (f : SideSchedule → SideSchedule) : Presents s (s.onSchedule sd f) := .of_sch s _

theorem Presents.onElement (s : State) (f : ElementInPlay → ElementInPlay) : Presents s (s.onElement f) := .of_spe s _

/-! ### Prompts -/

/-- A change of prompts that keeps what they were posted with. -/
theorem Presents.setPrompts (s : State) (l : List Prompt) (h : l.map Prompt.posted = s.ptb.prompts.map Prompt.posted) :
    Presents s (s.setPrompts l) := by
  constructor <;> intros <;> first | rfl | exact ⟨[], rfl, fun _ => rfl⟩ | exact .inl ‹_› | exact h | exact ⟨[], by simp⟩

/-- A change of one prompt that keeps what it was posted with. -/
theorem Presents.onPrompt (s : State) (slot : Nat) (f : Prompt → Prompt) (h : ∀ p, (f p).posted = p.posted) :
    Presents s (s.onPrompt slot f) := by
  refine .setPrompts s _ ?_
  rw [List.map_map]
  refine List.map_congr_left fun p _ => ?_
  by_cases e : p.slot = slot <;> simp [e, h]

theorem posted_enterAfter (p : Prompt) : (enterAfter p).posted = p.posted := by
  unfold enterAfter; cases afterDelivery p <;> rfl

theorem posted_spanDelivered (p : Prompt) : (spanDelivered p).posted = p.posted := by
  have h : ∀ x : PState, ({ enterAfter (played p) with state := x } : Prompt).posted = (enterAfter (played p)).posted := fun _ => rfl
  unfold spanDelivered
  split
  · rw [h, posted_enterAfter]; rfl
  · rw [h, posted_enterAfter]; rfl
  · rfl

theorem posted_repeatMade (p : Prompt) : (repeatMade p).posted = p.posted := by
  unfold repeatMade; split <;> rfl

theorem posted_replayOver (p : Prompt) : (replayOver p).posted = p.posted := by
  unfold replayOver; split <;> rfl

theorem posted_relieved (s : State) (p : Prompt) : (s.relieved p).posted = p.posted := by
  unfold State.relieved
  split
  · rfl
  · split
    · exact posted_spanDelivered p
    · split
      · exact posted_repeatMade p
      · rfl

theorem posted_grantedPrompt (s : State) (k : TurnKind) (p : Prompt) : (s.grantedPrompt k p).posted = p.posted := by
  cases k <;> simp only [State.grantedPrompt] <;> repeat' split
  all_goals rfl

theorem posted_displaced (p : Prompt) : (displaced p).posted = p.posted := by
  unfold displaced; split <;> rfl

theorem posted_emptyDelivered (p : Prompt) : (emptyDelivered p).posted = p.posted := by
  unfold emptyDelivered; split
  · exact posted_spanDelivered p
  · rfl

/-! ### Notices -/

/-- A queue is only added to when a notice is offered (R167). -/
theorem prefix_pushNotice (l : List Notice) (n : Notice) : l <+: pushNotice l n := by
  unfold pushNotice
  split
  · exact List.prefix_append _ _
  · split
    · exact List.prefix_append _ _
    · exact List.prefix_refl _

theorem NoticeQueue.prefix_offered : ∀ (ns : List Notice) (q : NoticeQueue), q.notices <+: (q.offered ns).notices
  | [], _ => List.prefix_refl _
  | n :: ns, q =>
    (prefix_pushNotice q.notices n).trans (NoticeQueue.prefix_offered ns (q.setNotices (pushNotice q.notices n)))

theorem NoticeQueue.mask_offered : ∀ (ns : List Notice) (q : NoticeQueue), (q.offered ns).mask = q.mask
  | [], _ => rfl
  | n :: ns, q => (NoticeQueue.mask_offered ns (q.setNotices (pushNotice q.notices n))).trans rfl

/-- Presentation leaves every mask. -/
theorem Presents.masks {s t : State} (h : Presents s t) (p : Port) : (t.nq.get p).mask = (s.nq.get p).mask := by
  obtain ⟨ns, e, _⟩ := h.queues p
  rw [e, NoticeQueue.mask_offered]

/-- Presentation only adds notices. -/
theorem Presents.notices {s t : State} (h : Presents s t) (p : Port) : (s.nq.get p).notices <+: (t.nq.get p).notices := by
  obtain ⟨ns, e, _⟩ := h.queues p
  rw [e]; exact NoticeQueue.prefix_offered ns _

theorem Presents.offer (s : State) (p : Port) (n : Notice) : Presents s (s.offer p n) := by
  unfold State.offer
  split
  · rename_i hr
    refine { Presents.refl s with queues := fun q => ?_ }
    rw [State.onQueue_nq, PerPort.get_update]
    by_cases e : q = p
    · subst e
      refine ⟨[n], by rw [if_pos rfl]; rfl, fun h => ?_⟩
      rw [h] at hr; cases hr
    · exact ⟨[], by rw [if_neg e]; rfl, fun _ => rfl⟩
  · exact .refl s

/-- Presentation steps folded over a list. -/
theorem Presents.foldl {α : Type} (f : State → α → State) (h : ∀ s a, Presents s (f s a)) :
    ∀ (l : List α) (s : State), Presents s (l.foldl f s)
  | [], s => .refl s
  | a :: l, s => (h s a).trans (Presents.foldl f h l (f s a))

theorem Presents.offerEach (s : State) (ps : List Port) (n : Notice) : Presents s (s.offerEach ps n) :=
  .foldl _ (fun s p => .offer s p n) ps s

theorem Presents.offerMasked (s : State) (n : Notice) : Presents s (s.offerMasked n) := .offerEach s _ n

theorem Presents.offerRoom (s : State) (n : Notice) : Presents s (s.offerRoom n) := by
  unfold State.offerRoom; split
  · exact .offer s _ n
  · exact .refl s

/-! ### Tones and renders -/

theorem Presents.requestTone (s : State) (n : Nat) (sd : Side) (o : Origin) : Presents s (s.requestTone n sd o) := by
  unfold State.requestTone; split
  · exact .refl s
  · exact .of_tone s _ _

theorem Presents.dropDisplayRead (s : State) (sd : Side) : Presents s (s.dropDisplayRead sd) := by
  unfold State.dropDisplayRead
  split
  · split
    · rename_i h _
      refine { Presents.refl s with transfer := ?_ }
      simp [h, Transfer.plain]
    · exact .refl s
  · exact .refl s

theorem Presents.continueRender (s : State) (sd : Side) (l : Fin 4) (x : List (Nat × TextItem)) (y : List (Nat × LineElem)) :
    Presents s (s.continueRender sd l x y) := by
  unfold State.continueRender
  split
  · exact .onRegion s sd _
  · exact .onRegion s sd _

theorem Presents.startRender (s : State) (sd : Side) : Presents s (s.startRender sd) := by
  unfold State.startRender
  refine (Presents.dropDisplayRead s sd).trans ?_
  simp only
  split
  · exact .onRegion _ sd _
  · exact .onRegion _ sd _
  · exact .continueRender _ sd _ _ _

theorem Presents.showContent (s : State) (sd : Side) (c : Content) : Presents s (s.showContent sd c) :=
  (Presents.onRegion s sd _).trans (.startRender _ sd)

theorem Presents.languageChanged (s : State) (sd : Side) : Presents s (s.languageChanged sd) := by
  unfold State.languageChanged; split
  · exact .startRender s sd
  · exact .refl s

theorem Presents.countdownChanged (s : State) (sd : Side) : Presents s (s.countdownChanged sd) := by
  unfold State.countdownChanged; simp only; split
  · exact .onRegion s sd _
  · exact .refl s

/-! ### The channel -/

theorem plain_releasePosted (page : Nat) (x : PortStore) : (releasePosted page x).plain = x.plain := by
  unfold releasePosted
  split
  · rename_i w h
    split
    · rename_i hc
      simp [PortStore.plain, h, Posted.plain, hc.1]
    · rfl
  · rfl

theorem Presents.unpin (s : State) : Presents s s.unpin := by
  unfold State.unpin
  split
  · exact .refl s
  · refine { Presents.refl s with ports := fun p => ?_, pin := fun q h => by cases h }
    have h := PerPort.get_mapAll s.psc.ports (releasePosted ‹Nat›) p
    exact (congrArg PortStore.plain h).trans (plain_releasePosted _ _)

theorem Presents.clearTurn (s : State) : Presents s s.clearTurn :=
  (Presents.unpin s).trans (.of_presentation s.unpin _ _ s.unpin.tgn.current s.unpin.tgn.noteLate s.unpin.dsp.regions s.unpin.stu.audition)

theorem Presents.setLastChannel (s : State) (o : Option Port) : Presents s (s.setLastChannel o) := .of_sch s _

theorem Presents.endTurn (s : State) (o : Port) : Presents s (s.endTurn o) := (Presents.clearTurn s).trans (.setLastChannel _ _)

theorem Presents.recordTurn (s : State) (t : Turn) : Presents s (s.recordTurn t) :=
  .of_presentation s _ _ s.tgn.current s.tgn.noteLate s.dsp.regions s.stu.audition

theorem Presents.startReplay (s : State) (sd : Side) : Presents s (s.startReplay sd) := .onSchedule s sd _

theorem Presents.repeatStopped (s : State) (slot : Nat) : Presents s (s.repeatStopped slot) :=
  { Presents.refl s with late := ⟨[slot], rfl⟩ }

theorem Presents.grantTurn (s : State) (t : Turn) : Presents s (s.grantTurn t) := by
  unfold State.grantTurn
  split
  · exact .recordTurn s _
  · split
    · exact .refl s
    · rename_i slot kind _ p _
      refine Presents.trans ?_ (.recordTurn _ _)
      have h : Presents s (if kind = .replay then (s.onPrompt slot (s.grantedPrompt kind)).startReplay p.side
          else s.onPrompt slot (s.grantedPrompt kind)) := by
        refine (Presents.onPrompt s slot _ (posted_grantedPrompt s kind)).trans ?_
        split
        · exact .startReplay _ _
        · exact .refl _
      split
      · exact h.trans (.repeatStopped _ _)
      · exact h

theorem Presents.grantTop (s : State) : Presents s s.grantTop := by
  unfold State.grantTop; split
  · exact .grantTurn s _
  · exact .refl s

theorem Presents.relieve (s : State) : Presents s s.relieve := by
  refine .setPrompts s _ ?_
  rw [List.map_map]
  exact List.map_congr_left fun p _ => posted_relieved s p

theorem Presents.replayCut (s : State) (p : Prompt) (k : TurnKind) : Presents s (s.replayCut p k) := by
  unfold State.replayCut; split
  · exact .onPrompt s _ _ posted_replayOver
  · exact .refl s

theorem Presents.preemptTurn (s : State) (p : Prompt) (k : TurnKind) : Presents s (s.preemptTurn p k) :=
  ((((Presents.replayCut s p k).trans (.clearTurn _)).trans (.relieve _)).trans (.grantTop _)).trans (.setLastChannel _ _)

theorem Presents.spanDone (s : State) (p : Prompt) (k : TurnKind) : Presents s (s.spanDone p k) := by
  cases k
  · exact .onPrompt s _ _ posted_spanDelivered
  · exact .onPrompt s _ _ fun _ => rfl
  · exact (Presents.onPrompt s _ _ fun x => (posted_replayOver (played x)).trans rfl).trans (.onSchedule _ _ _)

theorem Presents.deliverTurn (s : State) (p : Prompt) (k : TurnKind) : Presents s (s.deliverTurn p k) :=
  (Presents.spanDone s p k).trans (.endTurn _ _)

theorem Presents.loseTurn (s : State) (p : Prompt) (k : TurnKind) : Presents s (s.loseTurn p k) := by
  unfold State.loseTurn
  refine Presents.trans ?_ (.endTurn _ _)
  split
  · exact .onPrompt s _ _ posted_replayOver
  · exact .refl s

theorem Presents.endAudition (s : State) (v : Verdict) : Presents s (s.endAudition v) :=
  (((Presents.clearTurn s).trans (.setLastChannel _ _)).trans (.of_audition _ none)).trans (.offerRoom _ _)

theorem Presents.playElement (s : State) (w : List SpokenWord) (x : Playing) (n : Nat) : Presents s (s.playElement w x n) := .of_spe s _

theorem Presents.startElement (s : State) (p : Prompt) (e : SpanElem) : Presents s (s.startElement p e) := .playElement s _ _ _

theorem Presents.startAudition (s : State) (a : Audition) : Presents s (s.startAudition a) := .playElement s _ _ _

theorem Presents.elementEnded (s : State) (p : Prompt) (k : TurnKind) : Presents s (s.elementEnded p k) := by
  unfold State.elementEnded
  split
  · exact .loseTurn s p k
  · exact .deliverTurn s p k
  · split
    · exact .preemptTurn s _ _
    · dsimp only
      refine (Presents.of_sch s { s.sch with preempt := false }).trans ?_
      split
      · exact (Presents.onPrompt _ _ _ (fun _ => by rfl)).trans (.of_spe _ _)
      · exact .deliverTurn _ p k

theorem Presents.selfReset (s : State) (p : Prompt) (k : TurnKind) : Presents s (s.selfReset p k) :=
  ((Presents.spanDone s p k).trans (.endTurn _ _)).trans (.of_spe _ _)

theorem Presents.faultedPhrase (s : State) (p : Prompt) (k : TurnKind) (n : Nat) : Presents s (s.faultedPhrase p k n) := by
  unfold State.faultedPhrase
  dsimp only
  refine ((Presents.unpin s).trans (.offer _ p.owner (phraseFaultNotice (some p) 2 n))).trans ?_
  split
  · exact .onElement _ _
  · split
    · exact .selfReset _ p k
    · exact (Presents.of_spe _ _).trans (.onElement _ _)

theorem Presents.cleanPhrase (s : State) : Presents s s.cleanPhrase := by
  unfold State.cleanPhrase; split
  · exact .refl s
  · exact .of_spe s _

/-! ### Small steps -/

theorem Presents.beginBlock {s t f : State} {r : Resolution} {k : Nat} (hf : Presents s f) (h : s.beginBlock r k f = some t) :
    Presents s t := by
  simp only [State.beginBlock] at h
  split at h
  · split at h
    · cases h
    · rename_i hn
      cases h
      exact .of_spe s _ fun page hp => .inr (by cases hp; exact Bool.eq_false_iff.2 hn)
  · split at h
    · cases h
    · split at h
      · cases h; exact hf
      · cases h; exact .onElement s _

theorem Presents.promptElement {s t : State} {p : Prompt} {k : TurnKind} {e : ElementInPlay}
    (h : s.promptElement p k e = some t) : Presents s t := by
  unfold State.promptElement at h
  split at h
  · cases h
  · cases h
  · cases h; exact .elementEnded s p k
  · split at h
    · cases h; exact (Presents.offer s _ _).trans (.onElement _ _)
    · cases h; exact .onElement s _
  · split at h
    · cases h; exact .onElement s _
    · exact .beginBlock (.faultedPhrase s p k _) h

theorem Presents.auditionElement {s t : State} {e : ElementInPlay} (h : s.auditionElement e = some t) : Presents s t := by
  unfold State.auditionElement at h
  split at h
  · cases h
  · cases h
  · cases h; exact .endAudition s _
  · split at h
    · cases h; exact (Presents.offerRoom s _).trans (.endAudition _ _)
    · cases h; exact .onElement s _
  · split at h
    · cases h; exact .endAudition s _
    · exact .beginBlock ((Presents.offerRoom s _).trans (.endAudition _ _)) h

theorem Presents.notePreemption {s t : State} {p : Prompt} (h : s.notePreemption p = some t) : Presents s t := by
  unfold State.notePreemption at h
  split at h
  · cases h
  · split at h
    · cases h; exact .of_sch s _
    · split at h
      · cases h; exact .of_sch s _
      · cases h

theorem Presents.promptStep {s t : State} {p : Prompt} {k : TurnKind} (h : s.promptStep p k = some t) : Presents s t := by
  unfold State.promptStep at h
  split at h
  · rename_i s' hs; cases h; exact .notePreemption hs
  · split at h
    · split at h
      · cases h; exact .preemptTurn s _ _
      · split at h
        · cases h; exact .startElement s p _
        · cases h; exact .deliverTurn s p k
    · split at h
      · cases h; exact .preemptTurn s _ _
      · exact .promptElement h

theorem Presents.auditionStep {s t : State} (h : s.auditionStep = some t) : Presents s t := by
  unfold State.auditionStep at h
  split at h
  · cases h; exact .clearTurn s
  · cases h; exact .startAudition s _
  · exact .auditionElement h

theorem Presents.speechStep {s t : State} (h : s.speechStep = some t) : Presents s t := by
  unfold State.speechStep at h
  split at h
  · cases h; exact .relieve s
  · split at h
    · obtain ⟨x, _, hx⟩ := Option.map_eq_some_iff.1 h; subst hx; exact .grantTurn s x
    · cases h
    · cases h
    · split at h
      · exact .auditionStep h
      · split at h
        · exact .promptStep h
        · cases h; exact .clearTurn s
      · cases h; exact .clearTurn s

theorem Presents.settleSteps : ∀ (n : Nat) (s : State), Presents s (State.settleSteps n s)
  | 0, s => .refl s
  | n + 1, s => by
    unfold State.settleSteps
    split
    · rename_i t h; exact (Presents.speechStep h).trans (Presents.settleSteps n t)
    · exact .refl s

/-- The Scheduler and the Speech Engine going on until the channel waits. -/
theorem Presents.settle (s : State) : Presents s s.settle := .settleSteps _ s

/-! ### Stops at once, grants and displacements -/

theorem Presents.stopSpan (s : State) (n : Nat) : Presents s (s.stopSpan n) := by
  unfold State.stopSpan
  split
  · split
    · exact (Presents.onPrompt s _ _ (fun _ => by rfl)).trans (.endTurn _ _)
    · exact .refl s
  · exact .refl s

theorem Presents.deliverSide (s : State) (sd : Side) : Presents s (s.deliverSide sd) := by
  unfold State.deliverSide
  split
  · split
    · exact .deliverTurn s _ _
    · exact .refl s
  · exact .refl s

theorem Presents.clearReplay (s : State) (sd : Side) : Presents s (s.clearReplay sd) := by
  unfold State.clearReplay
  split
  · exact .refl s
  · refine Presents.trans ?_ (.onSchedule _ sd _)
    split
    · exact .onPrompt s _ _ posted_replayOver
    · exact .refl s

theorem Presents.markDelivered (s : State) (sd : Side) : Presents s (s.markDelivered sd) := by
  unfold State.markDelivered
  split
  · simp only; split
    · exact .of_sch s _
    · exact .refl s
  · exact .refl s

theorem Presents.loseSpeaker (s : State) (n : Nat) : Presents s (s.loseSpeaker n) := by
  unfold State.loseSpeaker; split
  · exact .of_sch s _
  · exact .refl s

theorem Presents.dropReplay (s : State) (sd : Side) (n : Nat) : Presents s (s.dropReplay sd n) := by
  unfold State.dropReplay; split
  · exact .clearReplay s sd
  · exact .refl s

theorem Presents.displace (s : State) (n : Nat) : Presents s (s.displace n) := by
  unfold State.displace
  split
  · exact .refl s
  · split
    · exact ((Presents.onPrompt s _ _ posted_displaced).trans (.loseSpeaker _ _)).trans (.dropReplay _ _ _)
    · exact .refl s
    · exact .refl s

theorem Presents.soundTone (s : State) (p : Prompt) : Presents s (s.soundTone p) := by
  unfold State.soundTone; split
  · exact .requestTone s _ _ _
  · exact .refl s

theorem Presents.grantPrompt (s : State) (n : Nat) : Presents s (s.grantPrompt n) := by
  unfold State.grantPrompt
  split
  · exact .refl s
  · split
    · exact .refl s
    · rename_i a _
      dsimp only
      refine (Presents.onPrompt s n (fun x => { x with state := .granted a }) (fun _ => by rfl)).trans ?_
      split
      · exact (Presents.soundTone _ _).trans (.onPrompt _ _ _ posted_emptyDelivered)
      · exact .refl _

/-! ### Regions -/

theorem Presents.setLastOwner (s : State) (sd : Side) (o : Port) : Presents s (s.setLastOwner sd o) := .onSchedule s sd _

theorem Presents.install (s : State) (sd : Side) (y : Prompt) : Presents s (s.install sd y) :=
  ((Presents.onSchedule s sd _).trans (.grantPrompt _ _)).trans (.showContent _ sd _)

theorem Presents.vacate (s : State) (sd : Side) : Presents s (s.vacate sd) := by
  unfold State.vacate
  dsimp only
  refine (Presents.onSchedule s sd fun x => { x with owner := none }).trans ?_
  split
  · exact .showContent _ sd _
  · exact .refl _

theorem Presents.installTop (s : State) (sd : Side) : Presents s (s.installTop sd) := by
  unfold State.installTop; split
  · exact .install s sd _
  · exact .vacate s sd

/-- A region chosen again. -/
theorem Presents.chooseRegion (s : State) (sd : Side) : Presents s (s.chooseRegion sd) := by
  unfold State.chooseRegion
  split
  · exact .installTop s sd
  · split
    · split
      · split
        · exact .refl s
        · exact ((Presents.displace s _).trans (.setLastOwner _ sd _)).trans (.install _ sd _)
      · exact .refl s
    · exact ((Presents.setLastOwner s sd _).trans (.displace _ _)).trans (.installTop _ sd)

theorem Presents.reviewPageless (s : State) (sd : Side) : Presents s (s.reviewPageless sd) :=
  .foldl _ (fun s p => by
    split
    · exact .grantPrompt s _
    · exact .displace s _) _ s

/-- A change of a side's holder, as the Scheduler takes it. -/
theorem Presents.holderChanged (s : State) (sd : Side) : Presents s (s.holderChanged sd) :=
  ((Presents.reviewPageless s sd).trans (.chooseRegion _ sd)).trans (.settle _)

theorem Presents.offerPrompt (s : State) (n : Nat) : Presents s (s.offerPrompt n) := by
  unfold State.offerPrompt
  split
  · exact .refl s
  · refine Presents.trans ?_ (.chooseRegion _ _)
    split
    · exact .grantPrompt s n
    · exact .refl s

theorem Presents.fairTurnChanged (s : State) : Presents s s.fairTurnChanged :=
  ((Presents.chooseRegion s .lower).trans (.chooseRegion _ .upper)).trans (.settle _)

theorem Presents.chooseAfter (s : State) (l : List Prompt) (sd : Side) : Presents s (s.chooseAfter l sd) := by
  unfold State.chooseAfter; split
  · exact .chooseRegion s sd
  · exact .refl s

theorem Presents.leaveRegion (s : State) (p : Prompt) : Presents s (s.leaveRegion p) := by
  unfold State.leaveRegion; split
  · exact .onSchedule s _ _
  · exact .refl s

theorem Presents.recordReplay (s : State) (sd : Side) (n : Nat) : Presents s (s.recordReplay sd n) :=
  (Presents.onSchedule s sd _).trans (.settle _)

theorem Presents.helpRequest (s : State) (sd : Side) : Presents s (s.helpRequest sd) := by
  unfold State.helpRequest
  split
  · exact .refl s
  · split
    · exact .refl s
    · split
      · exact .recordReplay s sd _
      · split
        · exact .recordReplay s sd _
        · split
          · exact .onSchedule s sd _
          · exact .refl s

theorem Presents.startUnbound (s : State) (sd : Side) : Presents s (s.startUnbound sd) := .onSchedule s sd _

theorem Presents.stopUnbound (s : State) (sd : Side) : Presents (s.overtakeUnbound sd) (s.stopUnbound sd) := by
  unfold State.stopUnbound
  dsimp only
  refine (Presents.onSchedule (s.overtakeUnbound sd) sd fun x => { x with unbound := ⟨0, false⟩, fallbackDue := false }).trans ?_
  split
  · exact .showContent _ sd _
  · exact .refl _

theorem Presents.fallbackFalls (s : State) (sd : Side) : Presents s (s.fallbackFalls sd) := by
  unfold State.fallbackFalls
  dsimp only
  refine (Presents.onSchedule s sd fun x => { x with unbound := ⟨Config.unboundTicks, false⟩, fallbackDue := true }).trans ?_
  split
  · exact .showContent _ sd _
  · exact .refl _

theorem Presents.softMode (s : State) (sd : Side) (m : SpeechMode) : Presents s (s.softMode sd m) := by
  unfold State.softMode
  refine (Presents.markDelivered s sd).trans ?_
  simp only; split
  · exact .clearReplay _ sd
  · exact .refl _

end Sys2Proof.Machine
end

