-- ==== Sys2Proof/Laws/Speech.lean ====
section
/-! SUPPORT. Who speaks and how a turn goes on: each operation of Speech.lean in the words that the statements use. With these laws a
statement about the channel is a case split on `speechStep_speaking` or `speechStep_idle`, and the operations stay folded. -/

namespace Sys2Proof.Machine

open Sys2Proof.Claims

/-! ### One prompt of the table -/

/-- Where slots are distinct, a prompt of the table is the one its slot names. -/
theorem State.prompt_of_mem {s : State} {x : Prompt} (h : slotsDistinct s) (hx : x ∈ s.ptb.prompts) : s.prompt x.slot = some x := by
  unfold slotsDistinct at h
  unfold State.prompt
  generalize s.ptb.prompts = l at *
  induction l with
  | nil => cases hx
  | cons y l ih =>
    simp only [List.map_cons, List.nodup_cons, List.mem_map, not_exists, not_and] at h
    rcases List.mem_cons.1 hx with rfl | hx
    · simp
    · rw [List.find?_cons_of_neg]
      · exact ih h.2 hx
      · simpa using fun e => h.1 x hx e.symm

/-- Where slots are distinct, a change of a slot is a change of its one prompt. -/
theorem State.onPrompt_congr {s : State} {x : Prompt} {f g : Prompt → Prompt} (h : slotsDistinct s) (hx : s.prompt x.slot = some x)
    (hfg : f x = g x) : s.onPrompt x.slot f = s.onPrompt x.slot g := by
  unfold State.onPrompt
  congr 1
  refine List.map_congr_left fun p hp => ?_
  by_cases q : p.slot = x.slot
  · have hp := State.prompt_of_mem h hp
    rw [q, hx] at hp
    cases hp
    simp [hfg]
  · simp [q]

/-- The prompt of a slot after its own change. -/
theorem State.prompt_onPrompt (s : State) (n : Nat) {f : Prompt → Prompt} (hf : ∀ y, (f y).slot = y.slot) :
    (s.onPrompt n f).prompt n = (s.prompt n).map f := by
  unfold State.onPrompt State.prompt State.setPrompts
  simp only
  generalize s.ptb.prompts = l
  induction l with
  | nil => rfl
  | cons y l ih => by_cases q : y.slot = n <;> simp [q, hf, ih]

/-! ### Eligibility, speech owed and candidates (R32, R39) -/

theorem State.eligible_iff (s : State) (x : Prompt) : s.eligible x = true ↔ mayPresent s x := by
  unfold State.eligible mayPresent PClass.urgent
  cases (s.records x.side).hold.holder <;> simp

theorem State.replayPending_iff (s : State) (x : Prompt) : s.replayPending x = true ↔ replayNames s x := by
  unfold State.replayPending replayNames
  cases (s.schedule x.side).replay <;> simp

theorem State.owes_iff (s : State) (x : Prompt) (k : TurnKind) : s.owes x = some k ↔ owesTurn s x k := by
  unfold State.owes owesTurn owesFirst owesRepeat
  rw [← State.replayPending_iff]
  cases hx : x.state with
  | queued => cases k <;> simp
  | held a => cases k <;> simp
  | granted a => cases a <;> cases k <;> simp <;> (cases s.replayPending x <;> simp; try cases x.repeatDue <;> simp)

theorem State.speaks_eq_false_iff (s : State) (n : Nat) : s.speaks n = false ↔ ∀ k, s.sch.turn ≠ some (.prompt n k) := by
  unfold State.speaks
  split
  · rename_i m k h
    rw [h]
    simp
  · rename_i h
    simpa using fun k e => h _ _ e

theorem State.mem_candidates_iff (s : State) (x : Prompt) : x ∈ s.candidates ↔ ∃ k, channelCandidate s x k := by
  unfold State.candidates channelCandidate State.wantsChannel State.modeOf
  rw [List.mem_filter, ← State.eligible_iff]
  simp only [Bool.and_eq_true, Bool.not_eq_true', Bool.or_eq_true, decide_eq_true_eq, Option.isNone_iff_eq_none,
    Option.isSome_iff_exists, State.owes_iff, State.speaks_eq_false_iff]
  constructor
  · rintro ⟨a, b, ⟨⟨⟨k, c⟩, d⟩, e⟩, f⟩
    exact ⟨k, a, b, d, e, f, c⟩
  · rintro ⟨k, a, b, d, e, f, c⟩
    exact ⟨a, b, ⟨⟨⟨k, c⟩, d⟩, e⟩, f⟩

theorem State.auditionWaits_iff (s : State) : s.auditionWaits = true ↔ auditionWaiting s := by
  unfold State.auditionWaits auditionWaiting
  simp [Option.isSome_iff_ne_none]

theorem PClass.rank_lt_iff (a b : PClass) : a.rank < b.rank ↔ (classCode b).toNat < (classCode a).toNat := by
  cases a <;> cases b <;> decide

theorem PClass.rank_eq_iff (a b : PClass) : a.rank = b.rank ↔ a = b := by cases a <;> cases b <;> decide

theorem State.safetyStands_iff (s : State) : s.safetyStands = true ↔ safetyWaits s := by
  unfold State.safetyStands safetyWaits
  rw [Bool.or_eq_true, State.auditionWaits_iff, List.any_eq_true]
  simp only [State.mem_candidates_iff, decide_eq_true_eq, ← exists_and_right]

theorem State.higherStands_iff (s : State) (x : Prompt) : s.higherStands x = true ↔ higherWaits s x := by
  unfold State.higherStands higherWaits
  rw [List.any_eq_true]
  simp only [State.mem_candidates_iff, decide_eq_true_eq, PClass.rank_lt_iff, ← exists_and_right]

/-! ### Ranking (R29, R30) -/

theorem fairMark_lt_iff (fair : Bool) (last : Option Port) (x y : Prompt) :
    fairMark fair last (some x.owner) < fairMark fair last (some y.owner) ↔ turnDecides fair last x y := by
  unfold fairMark turnDecides
  cases fair <;> simp
  by_cases a : some x.owner = last <;> by_cases b : some y.owner = last <;> simp [a, b] <;> grind

theorem RankKey.above_asymm {a b : RankKey} (h : a.above b = true) : ¬ b.above a = true := by
  unfold RankKey.above at *
  simp only [decide_eq_true_eq] at *
  omega

theorem RankKey.above_trans {a b c : RankKey} (h : a.above b = true) (h' : b.above c = true) : a.above c = true := by
  unfold RankKey.above at *
  simp only [decide_eq_true_eq] at *
  omega

/-- What a key beats, it beats by what it stays below. -/
theorem RankKey.above_of_not_above {a b c : RankKey} (h : ¬ b.above c = true) (h' : a.above c = true) : a.above b = true := by
  unfold RankKey.above at *
  simp only [decide_eq_true_eq] at *
  omega

theorem rankKey_above_iff (fair : Bool) (last : Option Port) (x y : Prompt) :
    (rankKey fair last x).above (rankKey fair last y) = true ↔ (classCode x.cls).toNat < (classCode y.cls).toNat ∨
      x.cls = y.cls ∧ (y.urgency < x.urgency ∨ x.urgency = y.urgency ∧ turnDecides fair last x y) := by
  unfold RankKey.above rankKey
  simp only [decide_eq_true_eq, PClass.rank_lt_iff, PClass.rank_eq_iff, fairMark_lt_iff]

theorem topRanked_nil (fair : Bool) (last : Option Port) : topRanked fair last [] = none := rfl

/-- The top-ranked prompt ranks above every earlier one, and no later one ranks above it (R29). -/
theorem topRanked_cons (fair : Bool) (last : Option Port) (l : List Prompt) (z : Prompt) :
    ∃ p l1 l2, topRanked fair last (z :: l) = some p ∧ z :: l = l1 ++ p :: l2 ∧
      (∀ y ∈ l1, (rankKey fair last p).above (rankKey fair last y) = true) ∧
      ∀ y ∈ l2, ¬ (rankKey fair last y).above (rankKey fair last p) = true := by
  induction l generalizing z with
  | nil => exact ⟨z, [], [], rfl, rfl, by simp, by simp⟩
  | cons w l ih =>
    by_cases h : (rankKey fair last w).above (rankKey fair last z) = true
    · obtain ⟨p, l1, l2, h1, h2, h3, h4⟩ := ih w
      refine ⟨p, z :: l1, l2, ?_, by rw [h2]; rfl, fun y hy => ?_, h4⟩
      · rw [← h1]
        simp [topRanked, h]
      · rcases List.mem_cons.1 hy with rfl | hy
        · cases l1 with
          | nil => cases h2; exact h
          | cons _ _ => cases h2; exact RankKey.above_trans (h3 w (List.mem_cons_self ..)) h
        · exact h3 y hy
    · obtain ⟨p, l1, l2, h1, h2, h3, h4⟩ := ih z
      have e : topRanked fair last (z :: w :: l) = some p := by
        rw [← h1]
        simp [topRanked, h]
      cases l1 with
      | nil =>
        cases h2
        exact ⟨z, [], w :: l, e, rfl, by simp, fun y hy => (List.mem_cons.1 hy).elim (fun q => q ▸ h) (h4 y)⟩
      | cons _ l1 =>
        cases h2
        refine ⟨p, z :: w :: l1, l2, e, rfl, fun y hy => ?_, h4⟩
        rcases List.mem_cons.1 hy with rfl | hy
        · exact h3 y (List.mem_cons_self ..)
        · rcases List.mem_cons.1 hy with rfl | hy
          · exact RankKey.above_of_not_above h (h3 z (List.mem_cons_self ..))
          · exact h3 y (List.mem_cons_of_mem _ hy)

theorem ranksAbove_or_earlier {fair : Bool} {last : Option Port} {l : List Prompt} {x y : Prompt} (h : ranksAbove fair last l x y) :
    (rankKey fair last x).above (rankKey fair last y) = true ∨ [x, y].Sublist l := by
  rw [rankKey_above_iff]
  rcases h with h | ⟨h0, h | ⟨h2, h | ⟨_, h⟩⟩⟩
  · exact .inl (.inl h)
  · exact .inl (.inr ⟨h0, .inl h⟩)
  · exact .inl (.inr ⟨h0, .inr ⟨h2, h⟩⟩)
  · exact .inr h

theorem ranksAbove_not_below {fair : Bool} {last : Option Port} {l : List Prompt} {x y : Prompt} (h : ranksAbove fair last l x y) :
    ¬ (rankKey fair last y).above (rankKey fair last x) = true := by
  rw [rankKey_above_iff]
  rintro (h2 | ⟨h1, h2⟩)
  · rcases h with h | ⟨h, _⟩
    · omega
    · rw [h] at h2; omega
  · rcases h with h | ⟨_, h⟩
    · rw [h1] at h; omega
    · rcases h with h | ⟨_, h⟩
      · omega
      · rcases h2 with h2 | ⟨_, h2⟩
        · omega
        · rcases h with h | ⟨h, _⟩
          · unfold turnDecides at *; grind
          · exact h h2

theorem pair_sublist_antisymm {α : Type} {l : List α} (h : l.Nodup) {p x : α} (a : [p, x].Sublist l) (b : [x, p].Sublist l) : p = x := by
  induction l with
  | nil => cases a
  | cons u l ih =>
    rw [List.nodup_cons] at h
    cases a with
    | cons _ a => cases b with
      | cons _ b => exact ih h.2 a b
      | cons_cons _ b => exact absurd (List.singleton_sublist.1 (List.Sublist.trans (by simp) a : [x].Sublist l)) h.1
    | cons_cons _ a => cases b with
      | cons _ b => exact absurd (List.singleton_sublist.1 (List.Sublist.trans (by simp) b : [p].Sublist l)) h.1
      | cons_cons _ b => rfl

/-- A prompt that ranks above every other candidate is the one that topRanked finds (R29). -/
theorem topRanked_eq_some {fair : Bool} {last : Option Port} {l posted : List Prompt} (hn : posted.Nodup) (hs : l.Sublist posted)
    {x : Prompt} (hx : x ∈ l) (h : ∀ y ∈ l, y ≠ x → ranksAbove fair last posted x y) : topRanked fair last l = some x := by
  cases l with
  | nil => cases hx
  | cons z l =>
    obtain ⟨p, l1, l2, h1, h2, h3, h4⟩ := topRanked_cons fair last l z
    rw [h1]
    by_contra hne
    have hpx : p ≠ x := fun e => hne (by rw [e])
    have r := h p (by rw [h2]; simp) hpx
    rw [h2] at hx
    rcases List.mem_append.1 hx with hx | hx
    · exact ranksAbove_not_below r (h3 x hx)
    · rcases List.mem_cons.1 hx with hx | hx
      · exact hpx hx.symm
      · rcases ranksAbove_or_earlier r with q | q
        · exact h4 x hx q
        · have hp : [p, x].Sublist posted := by
            refine List.Sublist.trans ?_ hs
            rw [h2]
            exact (List.Sublist.cons_cons p (List.singleton_sublist.2 hx)).trans (List.sublist_append_right l1 (p :: l2))
          exact hpx (pair_sublist_antisymm hn hp q)

/-- No two posted prompts are the same where slots are distinct. -/
theorem posted_nodup {s : State} (h : slotsDistinct s) : s.ptb.prompts.Nodup := List.Nodup.of_map _ h

theorem auditionKey_above_iff (s : State) (x : Prompt) :
    s.auditionKey.above (rankKey s.cfg.fairTurn s.sch.lastChannel x) = true ↔ auditionAbove s x := by
  have h : fairMark s.cfg.fairTurn s.sch.lastChannel (s.portOf .room) < fairMark s.cfg.fairTurn s.sch.lastChannel (some x.owner) ↔
      s.cfg.fairTurn = true ∧ s.sch.lastChannel = some x.owner ∧ s.portOf .room ≠ s.sch.lastChannel := by
    unfold fairMark
    cases s.cfg.fairTurn <;> simp
    cases s.portOf .room <;> simp <;> grind
  unfold State.auditionKey RankKey.above rankKey auditionAbove PClass.rank
  simp only [h]
  cases x.cls <;> (simp; try grind)

/-! ### Turns and deliveries (R16, R17, R43, R120, R123) -/

theorem unpinned_eq (s : State) : unpinned s = s.unpin := by
  unfold unpinned State.unpin finishCopy releasePosted
  cases s.spe.pin <;> rfl

theorem turnOver_idle_eq (s : State) : turnOver s .idle = s.clearTurn := by
  unfold turnOver State.clearTurn
  rw [unpinned_eq]
  unfold State.unpin
  cases s.spe.pin <;> rfl

theorem channelLastOwned_eq (s : State) (o : Option Port) : channelLastOwned s o = s.setLastChannel o := rfl

theorem stateDelivered_eq (x : Prompt) : stateDelivered x = afterDelivery x := by
  unfold stateDelivered afterDelivery
  cases x.cls <;> rfl

theorem repeatStarts_eq (x : Prompt) : repeatStarts x = startedRepeat x := by
  unfold repeatStarts startedRepeat
  simp [Config.ticksPerSecond, Nat.mul_comm]

theorem deliveredFirst_eq (x : Prompt) : deliveredFirst x (stateDelivered x) = enterAfter (played x) := by
  have h : afterDelivery (played x) = afterDelivery x := rfl
  have h' : startedRepeat (played x) = startedRepeat x := rfl
  unfold enterAfter deliveredFirst
  rw [stateDelivered_eq, repeatStarts_eq, h, h']
  cases afterDelivery x <;> simp [played, Config.ticksPerSecond, Nat.mul_comm]

theorem spanDelivered_presenting {x : Prompt} (h : x.state = .granted .presenting) :
    spanDelivered x = { deliveredFirst x (stateDelivered x) with state := .granted (stateDelivered x) } := by
  unfold spanDelivered
  rw [h]
  simp only
  rw [deliveredFirst_eq, stateDelivered_eq]

theorem repeatDelivered_eq (x : Prompt) : repeatDelivered x = deliveredAgain x := by
  unfold repeatDelivered deliveredAgain played
  rw [repeatStarts_eq]

theorem numberWords_eq (v : Nat) : numberWords v = spokenNumber v := by
  unfold numberWords spokenNumber
  have h : v % 100 % 10 = v % 10 := by omega
  by_cases h' : v % 100 < 20 <;> simp [h, h'] <;> split <;> rfl

theorem elementWords_eq (latch : Option Nat) (e : SpanElem) : elementWords latch e = spokenWords (latch.getD 0) e := by
  cases e <;> simp [elementWords, spokenWords, numberWords_eq]

theorem elementBegun_eq (s : State) (x : Prompt) (e : SpanElem) : elementBegun s x e = s.startElement x e := by
  unfold elementBegun State.startElement State.playElement
  rw [elementWords_eq]
  simp only
  congr 1
  congr 1
  · cases e <;> simp [elementStart]
  · unfold keptCopies
    congr 1; funext c; congr 1; funext y
    cases y.res <;> rfl

theorem begins_iff (s : State) (x : Prompt) (k : TurnKind) : s.begins x k = true ↔ turnBegins s x k := by
  unfold State.begins turnBegins
  cases k <;> simp
  cases (s.schedule x.side).replay <;> simp

theorem blockFaulted_iff (b : List Byte) : blockFaulted b = true ↔ faulted b := by
  unfold blockFaulted faulted blockStep
  simp

/-! ### Small steps (R40 to R45, R121) -/

theorem State.notePreemption_of_noted {s : State} {x : Prompt} (h : preemptionNoted s x) : s.notePreemption x = none := by
  obtain ⟨h1, h2⟩ := h
  rw [← State.safetyStands_iff] at h1
  rw [← State.higherStands_iff] at h2
  unfold State.notePreemption
  by_cases a : x.cls = .safety
  · simp [a]
  · by_cases b : s.sch.safetyCut = true
    · simp [b]
    · simp [a, b] at h1 h2
      rcases h2 with h2 | h2 <;> simp [a, b, h1, h2]

/-- With a turn of a prompt in progress, and nothing taken as delivered, the next small step is the turn's. -/
theorem State.speechStep_speaking {s : State} {x : Prompt} {k : TurnKind} (h : speakingPrompt s x k) : s.speechStep = s.promptStep x k := by
  obtain ⟨h1, h2, h3, h4⟩ := h
  unfold State.speechStep
  simp [h1, h2, h3, h4]

/-- With no preemption left to note, the turn's small step starts its element or goes on with it. -/
theorem State.promptStep_noted {s : State} {x : Prompt} (h : preemptionNoted s x) (k : TurnKind) : s.promptStep x k =
    match s.spe.element with
    | none =>
      if s.sch.safetyCut then some (s.preemptTurn x k)
      else
        match x.span[x.elemIndex]? with
        | some e => some (s.startElement x e)
        | none => some (s.deliverTurn x k)
    | some e => if s.sch.safetyCut ∧ !e.sounding then some (s.preemptTurn x k) else s.promptElement x k e := by
  unfold State.promptStep
  rw [State.notePreemption_of_noted h] <;> rfl

/-- In IDLE, with nothing taken as delivered, the small step is the grant of the top-ranked candidate. -/
theorem State.speechStep_idle {s : State} (h : s.spe.channel = .idle) (h' : s.owesInVain = false) :
    s.speechStep = s.topTurn.map s.grantTurn := by
  unfold State.speechStep
  simp [h, h']

theorem State.settle_of_none {s : State} (h : s.speechStep = none) : s.settle = s := by
  unfold State.settle settleBound State.settleSteps
  rw [h]

theorem State.settleSteps_succ {s t : State} (n : Nat) (h : s.speechStep = some t) :
    State.settleSteps (n + 1) s = State.settleSteps n t := by
  rw [State.settleSteps, h]

end Sys2Proof.Machine
end

