-- ==== Sys2Proof/Laws/Prompts.lean ====
section
/-! SUPPORT. Prompts that come and go, in the words of the statements: stops at once, closures, grants of prompts and of the
channel, and what claims the store bus. With these laws a statement about a closure is an unfolding of the command to `State.closePrompt`. -/

namespace Sys2Proof.Machine

open Sys2Proof.Claims

/-! ### Closures (R11, R24) -/

/-- A prompt's timers cancelled: those at their ends are noted. -/
theorem State.cancelTimers_eq (s : State) (x : Prompt) : s.cancelTimers x = { s with late := timersLate s [x] } := by
  have hn : ∀ (l : List Nat) (b : Bool), noteSlot l b x.slot = l ++ if b = true then [x.slot] else [] := by
    intro l b; cases b <;> simp [noteSlot]
  have he : (if s.expiryEnds x = true then [x.slot] else []) = expiriesLate s [x] := by
    unfold State.expiryEnds expiriesLate
    cases s.stu.flag <;> cases h : (x.expiryLeft.any fun n => decide (n ≤ 1)) <;> simp [h]
  have hd : (if s.dwellEnds x = true then [x.slot] else []) = dwellsLate s [x] := by
    unfold State.dwellEnds State.dwellRuns dwellsLate
    by_cases a : x.cls = .info <;> by_cases b : x.state = .granted .dwelling <;> by_cases c : x.dwellLeft = 0 <;>
      by_cases d : s.sch.turn = some (.prompt x.slot .replay) <;> simp [a, b, c, d]
  have hr : (if repeatEnds x = true then [x.slot] else []) = ([x].filter fun y => decide (y.repeatTimer = some 0)).map (·.slot) := by
    unfold repeatEnds
    by_cases a : x.repeatTimer = some 0 <;> simp [a]
  unfold State.cancelTimers timersLate
  rw [hn, hn, hn, he, hd, hr]

theorem spanStopped_eq {s : State} {x : Prompt} (h : s.prompt x.slot = some x) : spanStopped s x = s.stopSpan x.slot := by
  unfold spanStopped State.stopSpan State.endTurn
  rw [h]
  split
  · rw [turnOver_idle_eq, channelLastOwned_eq]
  · rfl

/-- Forgetting a replay that a side does not have changes nothing. -/
theorem replayForgotten_of_not {s : State} {sd : Side} {n : Nat} (h : ¬ ∃ r ∈ (s.schedule sd).replay, r.slot = n) :
    replayForgotten s sd n = s := by
  unfold State.schedule at h
  unfold replayForgotten State.onSchedule
  cases sd <;> simp only [PerSide.get, PerSide.update] at * <;> rw [if_neg h]

/-- A pending replay dropped: forgotten, and where it had been granted and does not play, its prompt's repeat timer starts again (R48; log 21). -/
theorem State.dropReplay_eq (s : State) (sd : Side) (n : Nat) :
    s.dropReplay sd n = replayForgotten
      (if (∃ r ∈ (s.schedule sd).replay, r.slot = n ∧ r.started = true) ∧ s.speaks n = false then s.onPrompt n replayOver else s) sd n := by
  unfold State.dropReplay State.clearReplay
  cases h : (s.schedule sd).replay with
  | none =>
    simp only [Option.any_none, Bool.false_eq_true, if_false, Option.mem_def, reduceCtorEq, false_and, exists_false]
    exact (replayForgotten_of_not (by simp [h])).symm
  | some r =>
    by_cases e : r.slot = n
    · subst e
      have hs : ∀ u : State, u.schedule sd = s.schedule sd → replayForgotten u sd r.slot =
          u.onSchedule sd fun y => { y with replay := none } := by
        intro u hu
        unfold replayForgotten State.onSchedule
        rw [← hu] at h
        unfold State.schedule at h
        cases sd <;> simp only [PerSide.get, PerSide.update] at * <;> rw [if_pos ⟨r, h, rfl⟩]
      cases a : r.started <;> cases b : s.speaks r.slot <;> simp [a, b] <;> rw [hs] <;> rfl
    · simp only [Option.any_some, e, decide_false, Bool.false_eq_true, if_false]
      have q : ¬ ∃ y ∈ (s.schedule sd).replay, y.slot = n := by rw [h]; simpa using e
      rw [h] at q
      rw [if_neg (fun z => q (z.1.imp fun _ w => ⟨w.1, w.2.1⟩)), replayForgotten_of_not (by rw [h]; exact q)]

/-- A change of a slot's prompt is gone with the prompt. -/
theorem filter_onPrompt (s : State) (n : Nat) {f : Prompt → Prompt} (hf : ∀ y, (f y).slot = y.slot) :
    (s.onPrompt n f).ptb.prompts.filter (fun y => decide (y.slot ≠ n)) = s.ptb.prompts.filter fun y => decide (y.slot ≠ n) := by
  unfold State.onPrompt State.setPrompts
  simp only
  induction s.ptb.prompts with
  | nil => rfl
  | cons y l ih => by_cases e : y.slot = n <;> simp [e, hf] <;> simpa using ih

theorem replayForgotten_owner (s : State) (sd sd' : Side) (n : Nat) :
    ((replayForgotten s sd n).schedule sd').owner = (s.schedule sd').owner := by
  unfold replayForgotten State.onSchedule State.schedule
  cases sd <;> cases sd' <;> simp only [PerSide.get, PerSide.update] <;> split <;> rfl

/-- The span stopped leaves the regions. -/
theorem spanStopped_sides (s : State) (x : Prompt) : (spanStopped s x).sch.sides = s.sch.sides := by
  unfold spanStopped
  split
  · rw [channelLastOwned_eq, turnOver_idle_eq]
    unfold State.clearTurn State.unpin
    split <;> rfl
  · rfl

/-- The span stopped leaves the notes of ends as they are, whatever they are. -/
theorem spanStopped_late (s : State) (x : Prompt) (l : LateEnds) :
    spanStopped { s with late := l } x = { spanStopped s x with late := l } := by
  unfold spanStopped
  have h : ({ s with late := l } : State).speaks x.slot = s.speaks x.slot := rfl
  rw [h]
  split
  · rw [channelLastOwned_eq, turnOver_idle_eq, channelLastOwned_eq, turnOver_idle_eq]
    unfold State.clearTurn State.unpin
    simp only [State.onPrompt, State.setPrompts]
    split <;> rfl
  · rfl

/-- The steps 1 to 3 of a closure (R24). -/
theorem promptRemoved_eq {s : State} {x : Prompt} (h : s.prompt x.slot = some x) : promptRemoved s x = s.removePrompt x := by
  have ho : ((spanStopped s x).schedule x.side).owner = (s.schedule x.side).owner := by unfold State.schedule; rw [spanStopped_sides]
  have h' : ({ s with late := timersLate s [x] } : State).prompt x.slot = some x := h
  unfold promptRemoved State.removePrompt
  simp only
  rw [State.cancelTimers_eq, State.dropReplay_eq, ← spanStopped_eq h', spanStopped_late s x (timersLate s [x])]
  unfold State.leaveRegion
  rw [replayForgotten_owner]
  generalize hw : ({ spanStopped s x with late := timersLate s [x] } : State) = w
  have hp : ∀ u : State, u.ptb.prompts.filter (fun y => decide (y.slot ≠ x.slot)) =
      (spanStopped s x).ptb.prompts.filter (fun y => decide (y.slot ≠ x.slot)) ∧ u = { w with ptb := u.ptb } ∧
      u.ptb.counter = (spanStopped s x).ptb.counter → ∀ f : PerSide SideSchedule → PerSide SideSchedule,
      ({ u with
        sch := { u.sch with sides := f u.sch.sides }
        ptb := ⟨u.ptb.prompts.filter fun y => decide (y.slot ≠ x.slot), u.ptb.counter⟩ } : State) =
      { spanStopped s x with
        sch := { (spanStopped s x).sch with sides := f (spanStopped s x).sch.sides }
        late := timersLate s [x]
        ptb := ⟨(spanStopped s x).ptb.prompts.filter fun y => decide (y.slot ≠ x.slot), (spanStopped s x).ptb.counter⟩ } := by
    rintro u ⟨h1, h2, h3⟩ f
    rw [h1, h3, h2, ← hw]
  have hv : ((if (∃ r ∈ (w.schedule x.side).replay, r.slot = x.slot ∧ r.started = true) ∧
    w.speaks x.slot = false then w.onPrompt x.slot replayOver else w).schedule x.side).owner = (s.schedule x.side).owner := by
    rw [← ho, ← hw]
    split <;> rfl
  have hu := hp (if (∃ r ∈ (w.schedule x.side).replay, r.slot = x.slot ∧ r.started = true) ∧
    w.speaks x.slot = false then w.onPrompt x.slot replayOver else w) (by
      rw [← hw]
      split
      · exact ⟨filter_onPrompt _ _ fun y => by unfold replayOver; split <;> rfl, rfl, rfl⟩
      · exact ⟨rfl, rfl, rfl⟩)
  generalize (if (∃ r ∈ (w.schedule x.side).replay, r.slot = x.slot ∧ r.started = true) ∧
    w.speaks x.slot = false then w.onPrompt x.slot replayOver else w) = u at *
  rw [hv]
  split
  · exact (hu fun p => (p.update x.side fun y => if ∃ r ∈ y.replay, r.slot = x.slot then { y with replay := none } else y).update x.side
      fun y => { y with owner := none, lastOwner := some x.owner }).symm
  · exact (hu fun p => p.update x.side fun y => if ∃ r ∈ y.replay, r.slot = x.slot then { y with replay := none } else y).symm

/-- A closure is that of its prompt's slot (R24). -/
theorem promptClosed_eq {s : State} {x : Prompt} (h : s.prompt x.slot = some x) (o : Closing) :
    promptClosed s x (outcomeCode o) (outcomeDetail o) = s.closePrompt x.slot o := by
  unfold promptClosed promptLeft State.closePrompt State.closeNoChoice
  rw [promptRemoved_eq h, h]
  rfl

/-! ### Grants and displacements (R15, R19) -/

theorem spanDelivered_queued (y : Prompt) :
    spanDelivered { y with state := .granted .presenting } = { deliveredFirst y (stateDelivered y) with state := .granted (stateDelivered y) } :=
  spanDelivered_presenting (x := { y with state := .granted .presenting }) rfl

theorem toneSounded_eq (s : State) (y : Prompt) : toneSounded s y = s.soundTone y := by
  unfold toneSounded State.soundTone
  cases y.tone with
  | none => rfl
  | some n =>
    simp only [State.requestTone, toneDropped, Bool.false_eq_true, if_false]
    cases h : s.pattern n <;> rfl

/-- A grant by which a prompt enters PRESENTING sounds its tone (R15). -/
theorem State.grantPrompt_enters {s : State} {y : Prompt} (hn : slotsDistinct s) (h : s.prompt y.slot = some y) (he : entersPresenting y) :
    s.grantPrompt y.slot = (toneSounded s y).onPrompt y.slot fun _ => promptGranted y := by
  have ht : ∀ f, (s.onPrompt y.slot f).soundTone y = (s.soundTone y).onPrompt y.slot f := by
    intro f
    unfold State.soundTone
    cases y.tone with
    | none => rfl
    | some n => rfl
  have hs : (toneSounded s y).ptb = s.ptb := by
    unfold toneSounded
    cases y.tone <;> rfl
  have hm : (toneSounded s y).prompt y.slot = some y := by unfold State.prompt; rw [hs]; exact h
  have hd : slotsDistinct (toneSounded s y) := by unfold slotsDistinct; rw [hs]; exact hn
  have hg : grantedState y.state = some .presenting := by rcases he with e | e <;> rw [e] <;> rfl
  have hp : promptGranted y = emptyDelivered { y with state := .granted .presenting } := by
    unfold promptGranted emptyDelivered
    rcases he with e | e <;> rw [e] <;> by_cases q : y.span = []
    all_goals first
      | (simp only [if_pos q]; exact (spanDelivered_queued y).symm)
      | simp only [if_neg q]
  unfold State.grantPrompt
  rw [h]
  simp only [hg, if_true]
  rw [ht, ← toneSounded_eq, hp]
  refine Eq.trans ?_ (State.onPrompt_congr hd hm rfl : (toneSounded s y).onPrompt y.slot
    (fun x => emptyDelivered { x with state := .granted .presenting }) = _)
  unfold State.onPrompt State.setPrompts
  simp only [List.map_map]
  congr 2
  refine List.map_congr_left fun z _ => ?_
  by_cases e : z.slot = y.slot <;> simp [e]

/-! ### The channel granted (R42, R48, R120) -/

/-- A turn that begins a delivery is granted with its record begun. -/
theorem State.grantTurn_begins {s : State} {x : Prompt} {k : TurnKind} (hn : slotsDistinct s) (h : s.prompt x.slot = some x)
    (hb : turnBegins s x k) : s.grantTurn (.prompt x.slot k) = turnGranted s x (turnBegun s x k) k := by
  have hb' : s.begins x k = true := (begins_iff s x k).2 hb
  have hy : s.grantedPrompt k x = turnBegun s x k := by
    unfold State.grantedPrompt turnBegun
    cases k <;> simp only [hb', if_true, true_and, startRepeat, latchMinutes]
    by_cases a : x.state = .granted .awaiting <;> simp only [a, if_true, if_false]
  have hc : s.onPrompt x.slot (s.grantedPrompt k) = s.onPrompt x.slot fun _ => turnBegun s x k := State.onPrompt_congr hn h hy
  unfold State.grantTurn turnGranted
  simp only [h, hc]
  cases k with
  | first => simp [State.stopsRepeat, State.recordTurn, speakingFor]
  | again => simp [State.stopsRepeat, State.recordTurn, speakingFor]
  | replay =>
    have hs : s.stopsRepeat x .replay = true ↔ x.repeatTimer = some 0 ∧ (turnBegun s x .replay).repeatTimer = none := by
      unfold State.stopsRepeat repeatEnds turnBegun
      by_cases a : x.state = .granted .awaiting <;> by_cases b : x.repeatTimer = some 0 <;> simp [a, b, hb']
    by_cases c : s.stopsRepeat x .replay = true
    · simp only [if_true, if_pos c, if_pos (hs.1 c)]; rfl
    · simp only [if_true, if_neg c, if_neg (fun z => c (hs.2 z))]; rfl

/-- A turn that goes on with a delivery is granted with the prompt's record as it stands. -/
theorem State.grantTurn_goes_on {s : State} {x : Prompt} {k : TurnKind} (hn : slotsDistinct s) (h : s.prompt x.slot = some x)
    (hb : ¬ turnBegins s x k) : s.grantTurn (.prompt x.slot k) = turnGranted s x { x with hasSpoken := true } k := by
  have hb' : s.begins x k = false := Bool.eq_false_iff.2 fun z => hb ((begins_iff s x k).1 z)
  have hy : s.grantedPrompt k x = { x with hasSpoken := true } := by
    unfold State.grantedPrompt
    simp only [hb', Bool.false_eq_true, if_false, false_and]
    cases k <;> rfl
  have hc : s.onPrompt x.slot (s.grantedPrompt k) = s.onPrompt x.slot fun _ => { x with hasSpoken := true } :=
    State.onPrompt_congr hn h hy
  have hs : s.stopsRepeat x k = false := by unfold State.stopsRepeat; simp [hb']
  unfold State.grantTurn turnGranted
  simp only [h, hc, hs, Bool.false_eq_true, if_false]
  cases k with
  | first => simp [State.recordTurn, speakingFor]
  | again => simp [State.recordTurn, speakingFor]
  | replay =>
    have hr : ¬ (x.repeatTimer = some 0 ∧ x.repeatTimer = none) := by rintro ⟨a, b⟩; rw [a] at b; cases b
    simp only [if_true, if_neg hr]
    rfl

/-! ### Claims of the store bus (R110, R144) -/

theorem State.displayTurn_iff (s : State) (sd : Side) : s.displayTurn = some sd ↔ (s.region sd).render ≠ none ∧
    ((s.region (otherSide sd)).render = none ∨ s.dsp.lastRead = some (otherSide sd) ∨ s.dsp.lastRead = none ∧ sd = .lower) := by
  unfold State.displayTurn State.displayClaims
  cases sd <;> cases a : (s.region .lower).render <;> cases b : (s.region .upper).render <;> rcases c : s.dsp.lastRead with _ | _ | _ <;>
    simp [otherSide, a, b]

/-- A port claims the bus for what portClaim finds (R110). -/
theorem State.portClaim_iff (s : State) (p : Port) (c : PortClaim) : s.portClaim p = some c ↔ portClaims s p c := by
  have hw : ∀ x, workClaim (s.link p) = some x ↔
      (∃ page offset length c q, x = .read page offset length ∧ (s.link p).inWork = some ⟨c, q, .read page offset length false⟩) ∨
        ∃ page offset data c q, x = .write page offset data ∧ (s.link p).inWork = some ⟨c, q, .write page offset data⟩ := by
    intro x
    unfold workClaim
    rcases (s.link p).inWork with _ | ⟨_, _, w⟩
    · simp
    · cases w with
      | read a b d e => cases e <;> simp <;> grind
      | _ => simp; try grind
  unfold State.portClaim portClaims
  rcases hp : (s.portStore p).posted with _ | w
  · simp only [hw]
    cases c <;> simp
  · by_cases hc : w.cond = .claiming
    · cases c <;> (simp [hc]; try grind)
    · cases c <;> (simp [hc, hw]; try grind)

end Sys2Proof.Machine
end

