-- ==== Sys2Proof/Laws/Requests.lean ====
section
/-! SUPPORT. What a request does to its port's link: the receiver stands in HUNT, and the response is placed or waits. With these laws a
request is the block's own reply and nothing else. -/

namespace Sys2Proof.Machine

/-! ### Updates of one record -/

theorem PerPort.update_update {α : Type} (x : PerPort α) (p : Port) (f g : α → α) :
    (x.update p f).update p g = x.update p fun a => g (f a) := by cases p <;> rfl

/-- Two updates are the same where they give the port's value the same. -/
theorem PerPort.update_congr {α : Type} (x : PerPort α) (p : Port) {f g : α → α} (h : f (x.get p) = g (x.get p)) :
    x.update p f = x.update p g := by cases p <;> simp only [PerPort.update] <;> simp_all [PerPort.get]

theorem PerPort.update_id {α : Type} (x : PerPort α) (p : Port) {f : α → α} (h : f (x.get p) = x.get p) : x.update p f = x := by
  cases p <;> simp_all [PerPort.update, PerPort.get]

theorem PerSide.update_update {α : Type} (x : PerSide α) (sd : Side) (f g : α → α) :
    (x.update sd f).update sd g = x.update sd fun a => g (f a) := by cases sd <;> rfl

theorem PerSide.update_congr {α : Type} (x : PerSide α) (sd : Side) {f g : α → α} (h : f (x.get sd) = g (x.get sd)) :
    x.update sd f = x.update sd g := by cases sd <;> simp only [PerSide.update] <;> simp_all [PerSide.get]

theorem PerSide.update_id {α : Type} (x : PerSide α) (sd : Side) {f : α → α} (h : f (x.get sd) = x.get sd) : x.update sd f = x := by
  cases sd <;> simp_all [PerSide.update, PerSide.get]

theorem State.onLink_onLink (s : State) (p : Port) (f g : PortLink → PortLink) :
    (s.onLink p f).onLink p g = s.onLink p fun l => g (f l) := by
  simp only [State.onLink, PerPort.update_update]

theorem State.onLink_congr (s : State) (p : Port) {f g : PortLink → PortLink} (h : f (s.link p) = g (s.link p)) :
    s.onLink p f = s.onLink p g := by simp only [State.onLink, PerPort.update_congr s.lnk p h]

theorem State.link_onLink_eq (s : State) (p q : Port) (f : PortLink → PortLink) :
    (s.onLink p f).link q = if q = p then f (s.link q) else s.link q := PerPort.get_update _ _ _ _

/-! ### Roles -/

/-- A change of a link that keeps its role keeps every port's role. -/
theorem State.role_onLink (s : State) (p q : Port) (f : PortLink → PortLink) (h : ∀ l, (f l).role = l.role) :
    ((s.onLink p f).link q).role = (s.link q).role := by
  rw [State.link_onLink_eq]; split
  · exact h _
  · rfl

/-- The port of a role depends on the roles of the links alone. -/
theorem State.portOf_congr {s t : State} (h : ∀ p, (t.link p).role = (s.link p).role) (r : Role) : t.portOf r = s.portOf r := by
  unfold State.portOf
  congr 1
  funext p
  rw [h p]

@[simp] theorem State.portOf_receiver (s : State) (p : Port) (x : Receive) (r : Role) : (s.receiver p x).portOf r = s.portOf r :=
  State.portOf_congr (fun q => s.role_onLink p q (fun l => l.receiver x) fun _ => rfl) r

@[simp] theorem State.role_receiver (s : State) (p q : Port) (x : Receive) :
    ((s.receiver p x).link q).role = (s.link q).role := s.role_onLink p q (fun l => l.receiver x) fun _ => rfl

@[simp] theorem State.inWork_receiver (s : State) (p q : Port) (x : Receive) :
    ((s.receiver p x).link q).inWork = (s.link q).inWork := by
  unfold State.receiver; rw [State.link_onLink_eq]; split <;> rfl

@[simp] theorem State.keptTaken_receiver (s : State) (p q : Port) (x : Receive) :
    ((s.receiver p x).link q).keptTaken = (s.link q).keptTaken := by
  unfold State.receiver; rw [State.link_onLink_eq]; split <;> rfl

@[simp] theorem State.link_receiver (s : State) (p : Port) (x : Receive) :
    (s.receiver p x).link p = (s.link p).receiver x := s.link_onLink p _

/-- The checks on a request code look at roles and the service flag alone. -/
@[simp] theorem State.codeCheck_receiver (s : State) (p q : Port) (x : Receive) (code : Byte) :
    (s.receiver p x).codeCheck q code = s.codeCheck q code := by
  unfold State.codeCheck; rw [State.role_receiver]; rfl

/-! ### Offers and links -/

/-- An offer of a notice depends on a link's role alone, so it may be made before or after the receiver moves. -/
theorem State.offer_onLink (s : State) (p q : Port) (f : PortLink → PortLink) (h : ∀ l, (f l).role = l.role) (n : Notice) :
    (s.onLink p f).offer q n = (s.offer q n).onLink p f := by
  unfold State.offer
  rw [State.role_onLink s p q f h]
  split <;> rfl

theorem State.offerEach_onLink (p : Port) (f : PortLink → PortLink) (h : ∀ l, (f l).role = l.role) (n : Notice) :
    ∀ (ps : List Port) (s : State), (s.onLink p f).offerEach ps n = (s.offerEach ps n).onLink p f
  | [], _ => rfl
  | q :: ps, s => by
    have e : ∀ t : State, t.offerEach (q :: ps) n = (t.offer q n).offerEach ps n := fun _ => rfl
    rw [e, e, State.offer_onLink s p q f h, State.offerEach_onLink p f h n ps]

theorem State.offerMasked_onLink (s : State) (p : Port) (f : PortLink → PortLink) (h : ∀ l, (f l).role = l.role) (n : Notice) :
    (s.onLink p f).offerMasked n = (s.offerMasked n).onLink p f := State.offerEach_onLink p f h n _ s

theorem State.offerRoom_onLink (s : State) (p : Port) (f : PortLink → PortLink) (h : ∀ l, (f l).role = l.role) (n : Notice) :
    (s.onLink p f).offerRoom n = (s.offerRoom n).onLink p f := by
  unfold State.offerRoom
  rw [State.portOf_congr (fun q => s.role_onLink p q f h)]
  split
  · exact State.offer_onLink s p _ f h n
  · rfl

/-! ### Requests -/

/-- A link whose response is placed in the free kept place. -/
theorem PortLink.respond_free {l : PortLink} (h : l.keptTaken = false) (code seq : Byte) (st : Status) (body : List Byte) :
    l.respond code seq st body =
      { l with inWork := none, transmit := l.transmit ++ [⟨code ||| 0x80, seq, st, body, true⟩] } := by
  simp [PortLink.respond, h, responseCode]

/-- A link whose response waits for the kept place. -/
theorem PortLink.respond_taken {l : PortLink} (h : l.keptTaken = true) (code seq : Byte) (st : Status) (body : List Byte) :
    l.respond code seq st body = { l with inWork := some ⟨code, seq, .response ⟨code ||| 0x80, seq, st, body, true⟩⟩ } := by
  simp [PortLink.respond, h, responseCode]

/-- A request that is taken and passes the checks is its block's reply. -/
theorem State.requestArrives_carried {s : State} {p : Port} {r : Request} (q : Byte) (hi : (s.link p).receive ≠ .ignore)
    (hw : (s.link p).inWork = none) (hc : s.codeCheck p (requestCode r) = none) (hs : wellSized r = true) :
    s.requestArrives p q r =
      ((s.receiver p .hunt).carryOut p r).2.reply p (requestCode r) q ((s.receiver p .hunt).carryOut p r).1 := by
  have e : (s.receiver p .hunt).codeCheck p (requestCode r) = none := by rw [State.codeCheck_receiver]; exact hc
  simp [State.requestArrives, State.ignoring, hi, State.takeRequest, PortLink.receiver, hw, e, hs]

/-- A request answered at once: what the block left, with the response placed. -/
theorem State.requestArrives_answer {s u : State} {p : Port} {r : Request} {st : Status} {body : List Byte} (q : Byte)
    (hi : (s.link p).receive ≠ .ignore) (hw : (s.link p).inWork = none) (hk : (s.link p).keptTaken = false)
    (hc : s.codeCheck p (requestCode r) = none) (hs : wellSized r = true)
    (h : (s.receiver p .hunt).carryOut p r = (.answer st body, u)) (hl : (u.link p).keptTaken = (s.link p).keptTaken) :
    s.requestArrives p q r = u.onLink p fun l =>
      { l with inWork := none, transmit := l.transmit ++ [⟨requestCode r ||| 0x80, q, st, body, true⟩] } := by
  rw [State.requestArrives_carried q hi hw hc hs, h]
  exact State.onLink_congr u p (g := fun l =>
    { l with inWork := none, transmit := l.transmit ++ [⟨requestCode r ||| 0x80, q, st, body, true⟩] })
    (PortLink.respond_free (hl.trans hk) _ _ _ _)

/-- A request that fails a check on its code. -/
theorem State.requestArrives_refused {s : State} {p : Port} {r : Request} {st : Status} (q : Byte)
    (hi : (s.link p).receive ≠ .ignore) (hw : (s.link p).inWork = none) (hk : (s.link p).keptTaken = false)
    (hc : s.codeCheck p (requestCode r) = some st) :
    s.requestArrives p q r = s.onLink p fun l =>
      { l.receiver .hunt with
        inWork := none, transmit := l.transmit ++ [⟨requestCode r ||| 0x80, q, st, [], true⟩] } := by
  have e : (s.receiver p .hunt).codeCheck p (requestCode r) = some st := by rw [State.codeCheck_receiver]; exact hc
  have k : ((s.receiver p .hunt).link p).keptTaken = false := by rw [State.keptTaken_receiver]; exact hk
  simp only [State.requestArrives, State.ignoring, hi, State.takeRequest, State.inWork_receiver, hw, e, decide_false,
    Bool.false_eq_true, if_false, Option.isSome_none]
  refine (State.onLink_congr _ p (g := fun l =>
    { l with inWork := none, transmit := l.transmit ++ [⟨requestCode r ||| 0x80, q, st, [], true⟩] })
    (PortLink.respond_free k _ _ _ _)).trans ?_
  exact State.onLink_onLink s p _ _

end Sys2Proof.Machine
end

