-- ==== Sys2Proof/Laws/Sides.lean ====
section
/-! SUPPORT. Turns that end, renders, sessions and house values, in the words of the statements. With these laws a statement about the end
of an element, a session or SET CONFIG is an unfolding of the command to the operations named here. -/

namespace Sys2Proof.Machine

open Sys2Proof.Claims

/-! ### Timers whose ends are overtaken (R37, R56 to R74, R140, R157; log 36) -/

theorem heard_eq (l : PortLink) (r : Receive) : heard l r = l.receiver r := by
  unfold heard PortLink.receiver PortLink.gapEnded
  cases h : l.receive <;> simp [Receive.timed, Config.gapTicks] <;> rfl

theorem receiving_eq (s : State) (p : Port) (r : Receive) : receiving s p r = s.receiver p r := by
  unfold receiving State.receiver State.onLink
  rw [funext fun l => heard_eq l r]

theorem idleRestarted_eq (s : State) (sd : Side) : idleRestarted s sd = s.restartIdle sd := rfl

theorem idleOvertaken_eq (s : State) (sd : Side) : idleOvertaken s sd = s.overtakeIdle sd := rfl

theorem holdRenewed_eq (s : State) (sd : Side) (p : Port) : holdRenewed s sd p = s.renewHold sd p := rfl

/-- A side freed by release or client reset (R65, R67). -/
theorem State.freeHold_eq (s : State) (sd : Side) : s.freeHold sd = (holdReleased s sd).holderChanged sd := rfl

theorem toneReplaced_eq (g : ToneGenerator) (t : Option Tone) : toneReplaced g t = g.replaced t := rfl

/-! ### Turns that end (R16, R17, R43, R48) -/

theorem repeatResumed_eq (x : Prompt) : repeatResumed x = replayOver x := by
  unfold repeatResumed replayOver
  rw [repeatStarts_eq]

theorem firstEnded_eq (x : Prompt) : firstEnded x = spanDelivered x := by
  unfold firstEnded spanDelivered
  rw [deliveredFirst_eq, stateDelivered_eq]
  rcases x.state with _ | a | a
  · rfl
  · cases a <;> rfl
  · cases a <;> rfl

theorem turnEnded_eq (s : State) (x : Prompt) : turnEnded s x = s.endTurn x.owner := by
  unfold turnEnded State.endTurn
  rw [turnOver_idle_eq, channelLastOwned_eq]

/-- What a delivered span leaves in the table (R16, R17, R48). -/
theorem spanOver_eq (s : State) (x : Prompt) (k : TurnKind) : spanOver s x k = s.spanDone x k := by
  unfold spanOver State.spanDone
  cases k
  · simp only [funext firstEnded_eq]
  · simp only [← funext repeatDelivered_eq]
  · have h : (fun y => repeatResumed (spanPlayed y)) = fun y => replayOver (played y) := funext fun y => repeatResumed_eq _
    have h' : (fun z : SideSchedule => { z with replay := match z.replay with
        | none => none
        | some r => if r.slot = x.slot ∧ r.started = true then (if r.further = true then some ⟨x.slot, false, false⟩ else none)
          else some r }) = replayEnded x.slot := by
      funext z
      unfold replayEnded
      obtain ⟨_, _, _, _, r⟩ := z
      cases r with
      | none => rfl
      | some r => by_cases c : r.slot = x.slot ∧ r.started = true <;> simp [c]
    exact (congrArg (State.onSchedule _ x.side) h').trans (by rw [h])

theorem turnEnded_spanOver (s : State) (x : Prompt) (k : TurnKind) : turnEnded (spanOver s x k) x = s.deliverTurn x k := by
  rw [turnEnded_eq, spanOver_eq]
  rfl

theorem turnEnded_replayLeft (s : State) (x : Prompt) (k : TurnKind) : turnEnded (replayLeft s x k) x = s.loseTurn x k := by
  rw [turnEnded_eq]
  unfold replayLeft State.loseTurn
  rw [funext repeatResumed_eq]

theorem replayCutOff_eq (s : State) (x : Prompt) (k : TurnKind) : replayCutOff s x k = s.replayCut x k := by
  have h : s.replayGranted x = true ↔ ∃ r ∈ (s.schedule x.side).replay, r.slot = x.slot ∧ r.started = true := by
    unfold State.replayGranted
    cases (s.schedule x.side).replay <;> simp
  unfold replayCutOff State.replayCut replayLeft
  rw [funext repeatResumed_eq]
  by_cases a : s.replayGranted x = true
  · rw [if_pos (h.1 a)]
    simp [a]
  · rw [if_neg (fun z => a (h.2 z))]
    simp [a]

/-- A preempted turn, whole (R40, R41, R43). -/
theorem State.preemptTurn_eq (s : State) (x : Prompt) (k : TurnKind) :
    s.preemptTurn x k = channelLastOwned (turnOver (replayCutOff s x k) .idle).relieve.grantTop (some x.owner) := by
  rw [replayCutOff_eq, turnOver_idle_eq, channelLastOwned_eq]
  rfl

/-- A speech self-reset, whole (R51, R131). -/
theorem State.selfReset_eq (s : State) (x : Prompt) (k : TurnKind) :
    s.selfReset x k =
      { turnEnded (spanOver s x k) x with spe := ⟨.recovering, none, some 0, 0, min 255 (s.spe.resets + 1), [], none⟩ } := by
  rw [turnEnded_eq, spanOver_eq]
  unfold State.selfReset State.endTurn State.clearTurn State.unpin State.setLastChannel State.spanDone
  cases k <;> simp only [State.onPrompt, State.setPrompts, State.onSchedule] <;> split <;> simp_all

/-- In IDLE, with nothing taken as delivered, the top-ranked candidate's grant is the next small step. -/
theorem State.grantTop_eq {s : State} (h : s.spe.channel = .idle) (h' : s.owesInVain = false) : s.grantTop = s.speechStep.getD s := by
  rw [State.speechStep_idle h h']
  unfold State.grantTop
  cases s.topTurn <;> rfl

/-! ### Modes and replays (R40, R41, R46, R53, R61) -/

theorem sideSpoken_eq (s : State) (sd : Side) : sideSpoken s sd = s.deliverSide sd := by
  unfold sideSpoken State.deliverSide
  simp only [turnEnded_spanOver] <;> rfl

theorem replayCleared_eq (s : State) (sd : Side) : replayCleared s sd = s.clearReplay sd := by
  unfold replayCleared State.clearReplay
  cases (s.schedule sd).replay with
  | none => rfl
  | some r =>
    simp only [funext repeatResumed_eq]
    cases r.started <;> cases s.speaks r.slot <;> rfl

theorem endingNoted_eq (s : State) (sd : Side) : endingNoted s sd = s.markDelivered sd := by
  unfold endingNoted State.markDelivered
  cases s.speaker with
  | none => rfl
  | some y =>
    obtain ⟨x, k⟩ := y
    simp only
    have h : (x.side = sd ∧ s.sch.ending = none ∧ ((s.records sd).session.mode = .off ∨
        k = .first ∧ x.state = .granted .presenting ∧ x.elemIndex < x.span.length ∧ (s.spe.channel = .silenced ∨
          (s.records sd).session.active = false ∧ x.cls ≠ .safety ∧ x.cls ≠ .fault))) ↔
        (x.side = sd ∧ (decide (s.modeOf sd = .off) || (decide (k = .first) && owesFirst x && s.barred x)) = true ∧
          s.sch.ending = none) := by
      unfold owesFirst State.barred State.mute State.modeOf PClass.urgent
      by_cases a : x.side = sd
      · subst a
        simp only [true_and, Bool.or_eq_true, Bool.and_eq_true, decide_eq_true_eq, Bool.not_eq_true', decide_eq_false_iff_not]
        by_cases b : (s.records x.side).session.mode = .off <;> simp [b]
        tauto
      · simp [a]
    by_cases c : x.side = sd ∧ s.sch.ending = none ∧ ((s.records sd).session.mode = .off ∨
        k = .first ∧ x.state = .granted .presenting ∧ x.elemIndex < x.span.length ∧ (s.spe.channel = .silenced ∨
          (s.records sd).session.active = false ∧ x.cls ≠ .safety ∧ x.cls ≠ .fault))
    · rw [if_pos c, if_pos (h.1 c)]
    · rw [if_neg c, if_neg fun z => c (h.2 z)]

theorem modeTaken_eq (s : State) (sd : Side) (old : SpeechMode) : modeTaken s sd old = s.softMode sd old := by
  unfold modeTaken State.softMode
  rw [endingNoted_eq, replayCleared_eq]
  have h : (s.markDelivered sd).modeOf sd = (s.records sd).session.mode := by
    unfold State.markDelivered
    split
    · simp only
      split <;> rfl
    · rfl
  simp only [h]

/-- A speech mode other than the one that stands (R61). -/
theorem State.putMode_eq {s : State} {sd : Side} {m : SpeechMode} (h : (s.records sd).session.mode ≠ m) :
    s.putMode sd m = modeSet s sd m := by
  unfold State.putMode modeSet State.modeOf
  rw [if_neg h]
  simp only [sideSpoken_eq, replayCleared_eq]
  split <;> rfl

/-! ### Renders (R143) -/

theorem readDropped_eq (s : State) (sd : Side) : readDropped s sd = s.dropDisplayRead sd := by
  unfold readDropped State.dropDisplayRead
  rcases s.psc.transfer with _ | t
  · rfl
  · cases t with
    | display d page b => cases b <;> rfl
    | _ => rfl

theorem State.resolve_congr {s t : State} (hd : t.psc.directory = s.psc.directory) (hc : t.cfg = s.cfg) (n : Nat) (l : Fin 4) :
    t.resolve n l = s.resolve n l := by
  unfold State.resolve State.resolveExact State.entry
  rw [hd, hc]

theorem State.formElems_congr {s t : State} (h : ∀ n l, t.resolve n l = s.resolve n l) (lang : Fin 4) :
    ∀ (todo : List (Nat × LineElem)) (f : List (Nat × TextItem)), t.formElems lang f todo = s.formElems lang f todo
  | [], _ => rfl
  | (n, e) :: rest, f => by
    cases e <;> simp only [State.formElems, State.formElems_congr h lang rest, h]

/-- A render begun (R143). -/
theorem renderBegun_eq (s : State) (sd : Side) : renderBegun s sd = s.startRender sd := by
  have hr : ∀ sd', (s.dropDisplayRead sd).region sd' = s.region sd' := by
    intro sd'
    rw [← readDropped_eq]
    unfold readDropped
    split
    · split <;> rfl
    · rfl
  have hc : (s.dropDisplayRead sd).records = s.records := by
    rw [← readDropped_eq]
    unfold readDropped
    split
    · split <;> rfl
    · rfl
  have hf : ∀ l f todo, (s.dropDisplayRead sd).formElems l f todo = s.formElems l f todo := by
    intro l f todo
    refine State.formElems_congr (fun n l => State.resolve_congr ?_ ?_ n l) l todo f <;> rw [← readDropped_eq] <;> unfold readDropped <;>
      split <;> (try split) <;> rfl
  have ho : ∀ (t : State) (f g : Region → Region), f (t.region sd) = g (t.region sd) → t.onRegion sd f = t.onRegion sd g := by
    intro t f g h
    unfold State.onRegion
    unfold State.region at h
    rw [PerSide.update_congr _ _ h]
  unfold renderBegun State.startRender regionRendered
  rw [readDropped_eq]
  simp only
  rw [hr, hc]
  cases h : (s.region sd).content with
  | empty => exact ho _ _ _ (by rw [hr, h]; rfl)
  | fallback => exact ho _ _ _ (by rw [hr, h]; rfl)
  | prompt n g =>
    simp only
    unfold State.continueRender State.commitRender rendered
    rw [hf]
    rcases s.formElems (s.records sd).session.language [] (pageElems g) with ⟨f, rest, _ | page⟩
    · simp only
      rw [hc]
      exact ho _ _ _ (by simp only [hr])
    · exact ho _ _ _ (by simp only [hr])

theorem languageTaken_eq (s : State) (sd : Side) (old : Fin 4) :
    languageTaken s sd old = if (s.records sd).session.language ≠ old then s.languageChanged sd else s := by
  unfold languageTaken State.languageChanged
  rw [renderBegun_eq]
  by_cases a : (s.records sd).session.language = old
  · simp [a]
  · cases (s.region sd).showsPrompt <;> simp [a]

/-! ### Sessions and house values (R53, R54, R57) -/

/-- Notices offered touch the queues alone. -/
theorem State.offerEach_eq (n : Notice) : ∀ (ps : List Port) (s : State), s.offerEach ps n = { s with nq := (s.offerEach ps n).nq }
  | [], _ => rfl
  | p :: ps, s => by
    have h : s.offerEach (p :: ps) n = (s.offer p n).offerEach ps n := rfl
    have h' : s.offer p n = { s with nq := (s.offer p n).nq } := by
      unfold State.offer
      split <;> rfl
    rw [h]
    refine (State.offerEach_eq n ps (s.offer p n)).trans ?_
    generalize ((s.offer p n).offerEach ps n).nq = q
    rw [h']

theorem State.offerMasked_eq (s : State) (n : Notice) : s.offerMasked n = { s with nq := (s.offerMasked n).nq } :=
  State.offerEach_eq n _ s

/-- A session begun, whole (R54, R152). -/
theorem sessionStarted_eq (s : State) (sd : Side) : sessionStarted s sd = s.beginSession sd := by
  have hs : (s.onSession sd fun x => { x with active := true, idle := some ⟨0, s.cfg.idleTimeout⟩ }) =
      (s.onSession sd fun x => { x with active := true }).startIdle sd := by cases sd <;> rfl
  unfold sessionStarted State.beginSession sessionBegun
  simp only
  rw [hs, renderBegun_eq, renderBegun_eq]
  have hd : (((s.onSession sd fun x => { x with active := true }).startIdle sd).offerMasked
      (beganNotice sd (s.records sd).session.language)).dsp = s.dsp := by rw [State.offerMasked_eq]; rfl
  have hn : (⟨.session, some sd, none, 1, (fourCode (s.records sd).session.language).setWidth 16, false⟩ : Notice) =
      beganNotice sd (s.records sd).session.language := rfl
  rw [hn]
  unfold State.sideActive panelWoken
  rw [hd]
  generalize (((s.onSession sd fun x => { x with active := true }).startIdle sd).offerMasked
      (beganNotice sd (s.records sd).session.language)) = u at *
  cases h : s.dsp.power <;> simp <;> rw [← hd] <;> rfl

/-- The session-start event of a key, whole (R54, R56). -/
theorem eventWoken_eq (s : State) (sd : Side) : eventWoken s sd = s.sessionEvent sd := by
  unfold eventWoken State.sessionEvent
  rw [sessionStarted_eq]
  rfl

/-- The closures of a session's end (R23, R57). -/
theorem sessionClosed_eq (s : State) (sd : Side) : sessionClosed s sd =
    ((s.onSession sd fun x => { x with active := false, idle := none }).sessionPrompts sd).foldl
      (fun s n => s.closePrompt n .unanswered) (s.onSession sd fun x => { x with active := false, idle := none }) := by
  unfold sessionClosed State.sessionPrompts
  refine congrArg (fun f => List.foldl f _ _) (funext fun u => funext fun n => ?_)
  cases hx : u.prompt n with
  | none =>
    unfold State.closePrompt
    rw [hx]
  | some x =>
    have hs : x.slot = n := by
      unfold State.prompt at hx
      simpa using List.find?_some hx
    subst hs
    exact promptClosed_eq hx .unanswered

/-- A closure leaves the sides' records (R24). -/
theorem State.scu_closePrompt (s : State) (n : Nat) (o : Closing) : (s.closePrompt n o).scu = s.scu := by
  unfold State.closePrompt
  cases s.prompt n with
  | none => rfl
  | some p =>
    have h1 : (s.removePrompt p).scu = s.scu :=
      (((Presents.stopSpan (s.cancelTimers p) p.slot).trans (Presents.dropReplay _ p.side p.slot)).trans (Presents.leaveRegion _ p)).scu
    have h2 : (s.closeNoChoice p o).scu = s.scu := (Presents.offer (s.removePrompt p) p.owner (closedNotice p o)).scu.trans h1
    exact ((Presents.chooseRegion (s.closeNoChoice p o) p.side).trans (Presents.settle _)).scu.trans h2

/-- A session ended, whole (R57). -/
theorem sessionLeft_eq (s : State) (sd : Side) (cause : EndCause) :
    sessionLeft s sd (match cause with | .idle => 1 | .request => 2) = s.endSession sd cause := by
  have hc : ∀ (l : List Nat) (u : State), (l.foldl (fun s n => s.closePrompt n .unanswered) u).scu = u.scu := by
    intro l
    induction l with
    | nil => intro u; rfl
    | cons n l ih => intro u; exact (ih _).trans (State.scu_closePrompt u n .unanswered)
  have ha : (sessionClosed s sd).scu = (s.onSession sd fun x => { x with active := false, idle := none }).scu := by
    rw [sessionClosed_eq, hc]
  have hm : ∀ c : EndCause, (⟨.session, some sd, none, 2, (match c with | .idle => 1 | .request => 2), false⟩ : Notice) =
      endedNotice sd c := fun c => by cases c <;> rfl
  have hp : ∀ v : State, (v.records sd).session.active = false → ({ v with dsp := panelRested v sd } : State) = v.sideAsleep := by
    intro v hv
    have ho : v.anyActive = (v.records (otherSide sd)).session.active := by
      unfold State.anyActive
      cases sd
      · rw [hv]; rfl
      · rw [hv, Bool.or_false]; rfl
    unfold panelRested State.sideAsleep State.dimPanel
    rw [ho]
    cases hw : v.dsp.power <;> cases hx : (v.records (otherSide sd)).session.active <;> simp
  unfold sessionLeft State.endSession
  simp only
  rw [← sessionClosed_eq, hm]
  generalize sessionClosed s sd = u at *
  have hh : (u.onSession sd fun x => { x with language := u.cfg.language, mode := u.cfg.mode, volume := u.cfg.volume }) =
      u.onSession sd (houseSession u.cfg) := rfl
  rw [hh, modeTaken_eq, languageTaken_eq, hp]
  rw [State.offerMasked_eq]
  unfold State.records State.onSession
  rw [ha]
  cases sd <;> rfl

/-- The house values taken by an ASLEEP side (R53). -/
theorem houseTaken_eq (s : State) (sd : Side) : houseTaken s sd = s.applyHouse sd := by
  have hh : (s.onSession sd fun x => { x with language := s.cfg.language, mode := s.cfg.mode, volume := s.cfg.volume }) =
      s.onSession sd (houseSession s.cfg) := rfl
  have hl : ((s.onSession sd (houseSession s.cfg)).records sd).session.language = s.cfg.language := by cases sd <;> rfl
  unfold houseTaken State.applyHouse
  simp only
  rw [hh, languageTaken_eq, hl, modeTaken_eq]
  cases (s.records sd).session.active
  · by_cases a : s.cfg.mode = (s.records sd).session.mode <;> simp [a]
  · rfl

end Sys2Proof.Machine
end

