-- ==== Sys2Proof/WellFormed.lean ====
section
/-! DEFINITION. Which commands can be given at all: a slot number names a slot (R12), and the lists of a request fit the one
frame that carries them (R172, R173). A command that passes may still be refused by the part; one that fails names nothing
the part's outside can do. -/

namespace Sys2Proof

/-- The bytes a page record takes in a frame (R173). -/
def RawPage.size (g : RawPage) : Nat := 5 + (g.lines.map (fun l => 1 + 3 * l.length)).sum

/-- The bytes a POST PROMPT body takes in a frame (R173). -/
def PromptBody.size (b : PromptBody) : Nat :=
  13 + 3 * b.span.length + (match b.page with | some g => g.size | none => 0)

/-- A request's own body holds at most 248 bytes (R172). -/
def maxBody : Nat := 248

/-- The checks on a command. -/
def Instr.wellFormed : Instr → Bool
  | .requestFrame _ body _ => decide (2 ≤ body.length ∧ body.length ≤ 250)
  | .postPrompt _ _ body => decide (body.size ≤ maxBody)
  | .writePage _ _ _ _ _ data => decide (5 + data.length ≤ maxBody)
  | .setTone _ _ _ _ notes => decide (2 + 2 * notes.length ≤ maxBody)
  | .setGlyph _ _ _ rows => decide (1 + rows.length ≤ maxBody)
  | .setSegmentMap _ _ entries => decide (entries.length ≤ maxBody)
  | .promptExpiry slot => decide (slot < 48)
  | .dwellExpiry slot => decide (slot < 48)
  | .repeatDue slot => decide (slot < 48)
  | .powerOnReset | .externalReset | .ignoreTimeEnd | .gapTimerExpiry _ | .frameTransmitted _ | .bindRole _ _ _
  | .unbindRole _ _ | .clientReset _ _ | .readIdentity _ _ | .fetchNotice _ _ | .setAttentionMask _ _ _
  | .withdrawPrompt _ _ _ | .queryPrompt _ _ _ | .listPrompts _ _ _ | .startSession _ _ _ | .endSession _ _ _
  | .setLanguage _ _ _ _ | .setSpeechMode _ _ _ _ | .claimSide _ _ _ | .releaseSide _ _ _ | .setCycle _ _ _ _ _ _ _
  | .readCycle _ _ _ | .readPage _ _ _ _ _ | .readPostError _ _ | .setWindow _ _ _ _ _ _ _ _
  | .setPhrase _ _ _ _ _ _ _ | .readPhrase _ _ _ _ | .setConfig _ _ _ | .readConfig _ _ | .enterService _ _
  | .leaveService _ _ | .lampTest _ _ _ _ | .storeSum _ _ _ _ | .speechCheck _ _ _ _ | .directoryCheck _ _ _ _
  | .keyCheck _ _ _ _ | .keyCheckEnd | .readTestResult _ _ | .audition _ _ _ _ | .restoreSpeech _ _
  | .keyContactChange _ _ _ | .makeConfirmed _ _ | .press _ _ | .hold _ _ | .knobPhaseChange _ _ _ | .idleExpiry _
  | .holdLapse _ | .countdownFall _ | .fallbackDue _ | .panelOff | .settlingEnd | .recoveryEnd | .displayRefresh
  | .blinkHalf | .toneNoteEnd | .busGrant | .transferEnd | .blockEnd | .pausePieceEnd | .byteTaken _ _ _
  | .breakConfirmed _ _ => true

end Sys2Proof
end

