-- ==== Sys2Proof/Tests/Slice0.lean ====
section
/-! SUPPORT. Tests. The well-formedness checks refuse an ill-formed command each; small steps on small states; and for every obligation
with hypotheses a theorem `wit_<Name>` that shows states and operands meeting them, clause by clause at boundary values. -/

namespace Sys2Proof.Tests

set_option Elab.async false

open Sys2Proof.Machine Sys2Proof.Claims

/-! ### Small states -/

/-- A link bound to a role, its receiver in HUNT. -/
def boundLink (r : Role) : PortLink := ⟨some r, .hunt, 0, none, [], false⟩

/-- The part after reset with the four ports bound and scanning begun. -/
def S0 : State :=
  { State.reset with
    lnk := ⟨boundLink .lowerDrum, boundLink .upperDrum, boundLink .payment, boundLink .room⟩
    ignoreLeft := none
    ksc := ⟨true, State.reset.ksc.sides⟩ }

/-- The same in service mode. -/
def SV : State := { S0 with stu := ⟨true, .empty, none, false⟩ }

/-- The same with LOWER ACTIVE and the panel ON. -/
def SA : State :=
  { (S0.onSession .lower fun x => { x with active := true, idle := some ⟨5, 120⟩ }) with dsp := { S0.dsp with power := .on } }

/-- The next state, where the command answers one. -/
def next (c : Instr) (s : State) : State :=
  match exec c s with
  | .next t => t
  | _ => s

/-- A live prompt of port A on LOWER, with one line and the response YES. -/
def prompt (slot : Nat) (cls : PClass) (st : PState) : Prompt where
  owner := .a
  tag := byteOf slot
  cls := cls
  urgency := 0
  side := .lower
  span := [.phrase 5]
  page := some ⟨[[.blank]], 0, 0⟩
  tone := none
  responseSet := 8
  holdToAnswer := false
  expiry := none
  repeatCount := 2
  repeatInterval := 10
  dwell := 5
  wake := false
  state := st
  elemIndex := 1
  latch := none
  spokenOnce := true
  hasSpoken := true
  repeatsLeft := 2
  expiryLeft := some 300
  dwellLeft := 500
  repeatTimer := some 1000
  repeatDue := false
  repeatStarted := false
  seq := 0
  slot := slot

/-- A state with one live prompt, region owner of LOWER. -/
def owned (s : State) (x : Prompt) : State :=
  (s.setPrompts [x]).onSchedule .lower fun y => { y with owner := some x.slot }

/-- The body of a POST PROMPT for LOWER: ACTION, one phrase, one line, YES. -/
def body : PromptBody :=
  ⟨7, 2, 1, 0, some ⟨1, 0, [[⟨0x11, 5⟩]]⟩, some 3, none, some (2, 10), none, false, false, false, 8, [⟨1, 5⟩]⟩

/-- The configuration record as it stands after reset, as it is sent. -/
def houseBody : ConfigBody := ⟨0, 0, 1, 20, 14, 8, 2, 120, 120, 60, 16, 16, 8, 8, 0, 1⟩

/-- A window over the whole store with every right, and its buffered form. -/
def openWindow (posted : Bool) : Window := ⟨true, 0, 511, 0, true, true, posted⟩

/-- A state where port D has a window. -/
def windowed (s : State) (w : Window) : State := s.onPortStore .d fun x => { x with windows := { x.windows with w0 := w } }

/-- A state with port D's request in work. -/
def working (s : State) (code : Byte) (w : Work) : State := s.onLink .d fun l => { l with inWork := some ⟨code, 9, w⟩ }

/-- A state with a transfer under way. -/
def moving (s : State) (t : Transfer) : State := { s with psc := { s.psc with transfer := some t } }

/-- A state with a directory of one phrase: number 5, language 0, first page 3, two blocks, with text. -/
def stocked (s : State) : State := { s with psc := { s.psc with directory := [(20, ⟨true, 3, 2, true⟩)] } }

/-- A state where LOWER's region owner stands beside a SAFETY prompt of port B. -/
def rivals : State :=
  (S0.setPrompts [prompt 0 .action (.granted .awaiting), { prompt 1 .safety .queued with owner := .b }]).onSchedule .lower fun y =>
    { y with owner := some 0 }

/-- A prompt of LOWER that owes its first delivery. -/
def fresh (slot : Nat) (cls : PClass) : Prompt :=
  { prompt slot cls (.granted .presenting) with elemIndex := 0, hasSpoken := false, spokenOnce := false, repeatTimer := none }

/-- A PRESS of YES on LOWER is made in these states. -/
def pressed (s : State) (k : Key) : State := s.onKey .lower k fun r => { r with state := .breaking 3 }

/-- A state where the first of some prompts of LOWER, its region owner, holds the channel with an element in play. -/
def speakingOf (l : List Prompt) (k : TurnKind) (e : Option ElementInPlay) : State :=
  let s := (SA.setPrompts l).onSchedule .lower fun y => { y with owner := some 0 }
  { s with sch := { s.sch with turn := some (.prompt 0 k) }, spe := { s.spe with channel := .speaking, element := e } }

/-- Phrase 5 of two blocks. -/
def phrase5 : Resolution := ⟨5, 0, 3, 2, true⟩

/-- An element of phrase 5 at a place. -/
def inPlay (at_ : Playing) : ElementInPlay := ⟨[⟨5, some phrase5⟩], [⟨5, some phrase5⟩], at_, 14, 0, 0, []⟩

/-- An audition of phrase 5 in language 0 holds the channel in service mode. -/
def auditioning (e : Option ElementInPlay) : State :=
  { SV with
    stu := ⟨true, .empty, some ⟨5, 0⟩, false⟩
    sch := { SV.sch with turn := some .audition }
    spe := { SV.spe with channel := .speaking, element := e } }

/-! ### Well-formedness: each check refuses an ill-formed command -/

theorem test_wellFormed_frame_short : Instr.wellFormed (.requestFrame .a [4] 0) = false := by decide

theorem test_wellFormed_frame_long : Instr.wellFormed (.requestFrame .a (List.replicate 251 4) 0) = false := by decide +kernel

theorem test_wellFormed_post :
    Instr.wellFormed (.postPrompt .a 0 { body with span := List.replicate 80 ⟨1, 5⟩ }) = false ∧
    Instr.wellFormed (.postPrompt .a 0 body) = true := by decide +kernel

theorem test_wellFormed_writePage : Instr.wellFormed (.writePage .a 0 0 0 64 (List.replicate 244 0)) = false := by decide +kernel

theorem test_wellFormed_setTone : Instr.wellFormed (.setTone .d 0 0 0 (List.replicate 124 (0, 1))) = false := by decide +kernel

theorem test_wellFormed_setGlyph : Instr.wellFormed (.setGlyph .d 0 0 (List.replicate 248 0)) = false := by decide +kernel

theorem test_wellFormed_setSegmentMap : Instr.wellFormed (.setSegmentMap .d 0 (List.replicate 249 0)) = false := by decide +kernel

theorem test_wellFormed_slots :
    Instr.wellFormed (.promptExpiry 48) = false ∧ Instr.wellFormed (.dwellExpiry 48) = false ∧
    Instr.wellFormed (.repeatDue 48) = false ∧ Instr.wellFormed (.promptExpiry 47) = true := by decide

/-! ### Small steps -/

theorem test_step_front : step { S0 with pending := [.blinkHalf, .panelOff] } = exec .blinkHalf { S0 with pending := [.panelOff] } := by
  rfl

theorem test_reset_accepts_after_ignore :
    ((next .ignoreTimeEnd State.reset).link .a).receive = .hunt ∧ ((next .ignoreTimeEnd State.reset).schedule .lower).unbound.running = true := by
  decide +kernel

theorem test_bind : ((next (.bindRole .a 1 1) (next .ignoreTimeEnd State.reset)).link .a).role = some .lowerDrum := by decide +kernel

theorem test_crc_frame :
    next (.requestFrame .a [0x04, 9] (frameCrc [0x04, 9])) S0 = next (.readIdentity .a 9) S0 := by decide +kernel

theorem test_bytes_make_frame :
    (next (.byteTaken .a 9 true) (next (.byteTaken .a 4 true) (next (.byteTaken .a 2 true)
      (next (.byteTaken .a 0xA5 true) S0)))).link .a = { S0.link .a with receive := .check [4, 9] none } := by decide +kernel

theorem test_post_owns_region :
    ((next (.postPrompt .a 1 body) S0).schedule .lower).owner = some 0 ∧ (next (.postPrompt .a 1 body) S0).dsp.power = .settling := by
  decide +kernel

theorem test_post_speaks_nothing_missing :
    ((next (.postPrompt .a 1 body) S0).prompt 0).map (·.state) = some (.granted .awaiting) ∧
    (noticesOf (next (.postPrompt .a 1 body) S0) .a).map (·.kind) = [.session, .phraseFault] := by decide +kernel

theorem test_speaks_stocked :
    (next (.postPrompt .a 1 body) (stocked S0)).spe.channel = .speaking ∧ (next (.postPrompt .a 1 body) (stocked S0)).spe.pin = some 3 := by
  decide +kernel

theorem test_fetch_then_play :
    (next .transferEnd (next .busGrant (next (.postPrompt .a 1 body) (stocked S0)))).spe.element.map (·.at_) = some (.block 0) := by
  decide +kernel

theorem test_answer_closes :
    (next (.press .lower .yes) ((owned SA (prompt 3 .action (.granted .awaiting))).onKey .lower .yes fun r =>
      { r with state := .breaking 3 })).ptb.prompts = [] := by decide +kernel

theorem test_reject_tone :
    ((next (.press .lower .no) ((owned SA (prompt 3 .action (.granted .awaiting))).onKey .lower .no fun r =>
      { r with state := .breaking 3 })).tgn.current.map (·.origin)) = some .reject := by decide +kernel

theorem test_direct_write :
    readByte (next .transferEnd (next .busGrant (next (.writePage .d 1 7 3 2 [0xAA, 0xBB]) (windowed S0 (openWindow false))))).psc.memory
      7 4 = 0xBB := by decide +kernel

theorem test_posted_write :
    ((next (.writePage .d 1 7 3 2 [0xAA, 0xBB]) (windowed S0 (openWindow true))).portStore .d).posted =
      some ⟨7, 3, [0xAA, 0xBB], .claiming, none⟩ := by decide +kernel

theorem test_store_sum :
    (next .busGrant (next (.storeSum .d 1 0 511) SV)).psc.transfer = some (.test 0 0 false) := by decide +kernel

theorem test_lamp_test : (next .displayRefresh (next (.lampTest .d 1 1 0) SV)).dsp.panel.backlight = .full := by decide +kernel

theorem test_countdown_zero :
    let s := S0.onCycle .lower fun _ => ⟨.wash, 1, true, some 100⟩
    ((next (.countdownFall .lower) s).records .lower).cycle = ⟨.wash, 0, false, none⟩ := by decide +kernel

theorem test_countdown_overtaken :
    let s := S0.onCycle .lower fun _ => ⟨.wash, 7, true, some 100⟩
    let t := next (.countdownFall .lower) (next (.setCycle .a 1 0 2 0 9 0) s)
    (t.records .lower).cycle = ⟨.wash, 9, true, some 0⟩ ∧
    ((next (.countdownFall .lower) (next (.setCycle .a 1 0 1 3 0 0) s)).records .lower).cycle = ⟨.rinse, 6, true, some 0⟩ := by
  decide +kernel

/-- A prompt whose expiry falls together with its replacement leaves; the expiry that comes then does not reach the prompt that took its slot
(R11). -/
theorem test_expiry_overtaken :
    let s := owned SA { prompt 0 .action (.granted .awaiting) with tag := 7, expiryLeft := some 1 }
    let t := next (.postPrompt .a 1 { body with replace := true, expiry := some 3 }) s
    t.late.expiries = [0] ∧ ((next (.promptExpiry 0) t).prompt 0).isSome = true ∧ (next (.promptExpiry 0) t).late.expiries = [] ∧
    (next (.promptExpiry 0) (next (.promptExpiry 0) t)).prompt 0 = none := by decide +kernel

/-- The same of a dwell: the new prompt, of an empty span, stands in DWELLING when the old prompt's row comes (R24). -/
theorem test_dwell_overtaken :
    let s := owned SA { prompt 0 .info (.granted .dwelling) with tag := 7, dwellLeft := 0 }
    let t := next (.postPrompt .a 1 { body with replace := true, cls := 4, responseSet := 0, repeats := none, dwell := some 5, span := [] }) s
    (t.prompt 0).map (·.state) = some (.granted .dwelling) ∧ ((next (.dwellExpiry 0) t).prompt 0).isSome = true ∧
    (next (.dwellExpiry 0) (next (.dwellExpiry 0) t)).prompt 0 = none ∧
    (next (.dwellExpiry 0) s).late = ⟨[], [], []⟩ ∧ (next (.dwellExpiry 0) s).prompt 0 = none := by decide +kernel

/-- HELP falls together with the end of the repeat timer that its replay stops: the repeat does not fall due, though the replay of an absent
phrase is over at once and the timer runs afresh (R48). -/
theorem test_repeat_stopped :
    let s := pressed (owned SA { prompt 0 .action (.granted .awaiting) with repeatTimer := some 0 }) .help
    let t := next (.press .lower .help) s
    t.late.repeats = [0] ∧ (t.prompt 0).map (·.repeatTimer) = some (some 1000) ∧
    ((next (.repeatDue 0) t).prompt 0).map (·.repeatTimer) = some (some 1000) ∧ (next (.repeatDue 0) t).late.repeats = [] := by
  decide +kernel

/-- HELP leaves a replay alone that has not been granted, though an older replay's turn runs out (R48). -/
theorem test_help_while_old_replay_runs :
    let x := prompt 0 .action (.granted .awaiting)
    let s := { pressed (owned SA x) .help with
      sch := { (owned SA x).sch with turn := some (.prompt 0 .replay) }
      spe := { SA.spe with channel := .speaking, element := some (inPlay (.block 0)) } }
    let u := s.onSchedule .lower fun y => { y with replay := some ⟨0, false, false⟩ }
    let v := s.onSchedule .lower fun y => { y with replay := some ⟨0, true, false⟩ }
    ((next (.press .lower .help) s).schedule .lower).replay = some ⟨0, false, false⟩ ∧
    ((next (.press .lower .help) u).schedule .lower).replay = some ⟨0, false, false⟩ ∧
    ((next (.press .lower .help) v).schedule .lower).replay = some ⟨0, true, true⟩ := by decide +kernel

/-- NUMBER 222 with words of two pages each: a fetch behind the page being decoded waits, however full the list is (R126). -/
theorem test_fetch_waits_for_room :
    let w := fun n f => (⟨n, some ⟨n, 0, f, 9, true⟩⟩ : SpokenWord)
    let e : ElementInPlay := ⟨[w 226 10, w 252 20, w 246 30, w 226 10], [w 226 10, w 252 20, w 246 30, w 226 10], .block 8, 14, 0, 0, []⟩
    let full := fun n f => (⟨n, ⟨f, 0, f, 9, true⟩, (List.range 8).map fun i => (i, []), false⟩ : PageCopy)
    let s := fun l => ({ speakingOf [fresh 0 .action] .first (some e) with
      spe := { (speakingOf [fresh 0 .action] .first (some e)).spe with prefetch := l, pin := some 11 } } : State)
    (s [full 10 10, full 11 10, full 20 20, full 21 20]).nextFetch = none ∧
    ((s [full 10 10, full 11 10, full 20 20]).nextFetch.map (·.page)) = some 21 ∧
    ((s [full 5 5, full 11 10, full 20 20, full 21 20]).nextFetch.map (·.page)) = some 30 := by decide +kernel

/-- A write drops the prefetch copy of its page (R113). -/
theorem test_write_drops_copy :
    let c := fun n => (⟨n, phrase5, [(1, [])], false⟩ : PageCopy)
    let s := moving (working S0 0x30 (.write 4 511 [1])) (.write .d 4 511 [1])
    ((next .transferEnd { s with spe := { s.spe with prefetch := [c 3, c 4] } }).spe.prefetch.map (·.page)) = [3] := by decide +kernel

/-- Ports A and D claim: D goes first once A has been served, A after a reset (R110). -/
theorem test_circular_order :
    let s := working (S0.onLink .a fun l => { l with inWork := some ⟨0x31, 1, .read 0 0 1 false⟩ }) 0x31 (.read 5 0 1 false)
    let at_ := fun l => ({ s with psc := { s.psc with lastServed := l } } : State)
    s.clientTurn.map (·.1) = some .a ∧ (at_ (some .a)).clientTurn.map (·.1) = some .d ∧ (at_ (some .d)).clientTurn.map (·.1) = some .a := by
  decide +kernel

/-- A grant that fails a buffered write takes no transfer, and the arbiter grants again (R107, R110). -/
theorem test_grants_again :
    let s := (withPosted S0 .a (some ⟨0, 0, [1], .claiming, none⟩))
    (next .busGrant (working s 0x31 (.read 5 0 1 false))).psc.transfer = some (.read .d 5 0 1) ∧
    ((next .busGrant (working s 0x31 (.read 5 0 1 false))).portStore .a).posted = none := by decide +kernel

/-- A queued SAFETY prompt of the ranking displaces the owner: granted and displaced (R15, R19, R36). -/
theorem test_region_handed :
    ((rivals.chooseRegion .lower).prompt 0).map (·.state) = some (.held .awaiting) ∧
    ((rivals.chooseRegion .lower).prompt 1).map (·.state) = some (.granted .presenting) ∧
    ((rivals.chooseRegion .lower).schedule .lower).owner = some 1 ∧ ((rivals.chooseRegion .lower).schedule .lower).lastOwner = some .a := by
  decide +kernel

/-- An audition of an absent phrase, and one played to its end (R141, R180). -/
theorem test_audition :
    let s := next (.audition .d 1 5 0) SV
    (noticesOf s .d).map (fun n => (n.kind, n.detail1, n.detail2)) = [(.phraseFault, 1, 5), (.testDone, 5, 2)] ∧ s.spe.channel = .idle ∧
    let t := next .blockEnd (auditioning (some (inPlay (.block 1))))
    (noticesOf t .d).map (fun n => (n.kind, n.detail1, n.detail2)) = [(.testDone, 5, 1)] ∧ t.stu.audition = none := by decide +kernel

theorem test_held_repeat_silenced :
    let x := { prompt 0 .action (.held .awaiting) with repeatStarted := true, elemIndex := 0 }
    let s := { S0.setPrompts [x] with spe := { S0.spe with channel := .silenced } }
    (s.settle.prompt 0).map (fun y => (y.repeatStarted, y.elemIndex)) = some (false, 1) := by decide +kernel

theorem test_blank_built_in : ∀ n : Fin 16, S0.glyphRow true 0x20 n = 0 := by decide +kernel

theorem test_mute_and_rest : attenuatedOr (some 31) 5 = 0 ∧ attenuatedOr (some 7) 0 = 0 ∧ attenuatedOr (some 0) 5 = 5 ∧ toneHz 0 = none ∧
    toneHz 121 = some 2000 ∧ S0.toneSampleAt 7 = 0 := by decide +kernel

/-- 10, 20 and 30 steps are 20, 40 and 60 dB; 3 steps, 6 dB, leave of 32,767 a magnitude of 16,422 and a fraction. -/
theorem test_steps_of_2_dB : attenuatedOr (some 10) (-32760) = -3276 ∧ attenuatedOr (some 20) 32700 = 327 ∧
    attenuatedOr (some 30) 32000 = 32 ∧ attenuatedDown 3 32767 = 16422 := by decide +kernel

theorem test_silence_out : S0.audioOut 0 0 = 0 := limitedOutput_zero

theorem test_knob_clockwise :
    (noticesOf (next (.knobPhaseChange .lower false false) (next (.knobPhaseChange .lower false true)
      (next (.knobPhaseChange .lower true true) (next (.knobPhaseChange .lower true false) SA)))) .a) =
      [⟨.key, some .lower, none, 7, 2, false⟩] := by decide +kernel

theorem test_numbers :
    numberWords 0 = [224] ∧ numberWords 999 = [233, 252, 251, 233] ∧ numberWords 100 = [225, 252] ∧ numberWords 21 = [244, 225] := by
  decide

theorem test_countdown_text :
    countdownGlyphs 0 = [0x30, 0x30, 0x3A, 0x30, 0x30] ∧ countdownGlyphs 35999 = [0x39, 0x3A, 0x35, 0x39, 0x3A, 0x35, 0x39] := by decide

theorem test_zero_block : blockFaulted (List.replicate 64 0) = false ∧ blockFaulted (0 :: 0 :: 64 :: List.replicate 61 0) = true := by
  decide +kernel

theorem test_silenced :
    (next .recoveryEnd { S0 with
      cfg := { S0.cfg with lockOnFault := true }
      spe := { S0.spe with channel := .recovering, recovery := some 20, resets := 2 } }).spe.channel = .silenced := by decide +kernel

/-! ### Witnesses: the hypotheses of every obligation are met -/

theorem wit_StepTakesFrontCommand : ({ S0 with pending := [.blinkHalf, .panelOff] } : State).pending = .blinkHalf :: [.panelOff] := rfl

theorem wit_EmptyQueueCountsTimers :
    S0.pending = [] ∧ SV.pending = [] ∧ SV.stu.flag = true ∧ SA.stu.flag = false ∧
    (SA.records .lower).session.idle = some ⟨5, 120⟩ := by decide +kernel

theorem wit_WholePartResets_calm :
    ∀ p pg o d, S0.psc.transfer ≠ some (.write p pg o d) ∧ S0.psc.transfer ≠ some (.posted p pg o d) := by
  intro p pg o d; constructor <;> (intro h; cases h)

theorem wit_WholePartResets :
    storeCanonical (moving S0 (.write .d 511 511 [1])) ∧ (moving S0 (.write .d 511 511 [1])).psc.transfer = some (.write .d 511 511 [1]) := by
  unfold storeCanonical; decide +kernel

theorem wit_IgnoreTimeEnds : S0.ignoreLeft = none ∧ State.reset.ignoreLeft ≠ none := by decide +kernel

theorem wit_ReceiverTakesBytes :
    (State.reset.link .a).receive = .ignore ∧ (S0.link .a).receive = .hunt ∧
    ((receiving S0 .a .length).link .a).receive = .length ∧ ((receiving S0 .a (.body 2 [4])).link .a).receive = .body 2 [4] ∧
    ((receiving S0 .a (.check [4, 9] none)).link .a).receive = .check [4, 9] none ∧
    ((receiving S0 .a (.check [4, 9] (some 0))).link .a).receive = .check [4, 9] (some 0) ∧
    frameCrc [4, 9] ≠ 0 := by decide +kernel

theorem wit_ReceiverTakesBytes_overtaken :
    ((S0.onLink .a fun l => { l with gapLate := true }).link .a).gapLate = true ∧ (S0.link .a).gapLate = false := by decide +kernel

/-- A byte taken with the gap timer at its end overtakes it (R157; log 36). -/
theorem test_byte_overtakes_gap :
    ((next (.byteTaken .a 4 true) (S0.onLink .a fun l => { l with receive := .body 2 [], gap := 2 })).link .a).gapLate = true := by
  decide +kernel

theorem wit_FrameIsItsRequest :
    requestOf (.readCycle .a 3 0) = some (.a, 3, .readCycle 0) ∧ parseRequest 0x27 [0] = some (.readCycle 0) ∧
    ready S0 .a 0x04 ∧ parseRequest 0x04 [1] = none := by unfold ready; decide +kernel

theorem wit_RequestsRefused :
    requestOf (.readIdentity .a 3) = some (.a, 3, .readIdentity) ∧ (State.reset.link .a).receive = .ignore ∧
    ((working S0 0x31 .testStart).link .d).receive ≠ .ignore ∧ ((working S0 0x31 .testStart).link .d).inWork ≠ none ∧
    (0 : Byte) ∉ requestCodes ∧ (0x27 : Byte) ∈ requestCodes ∧ (State.reset.link .a).role = none ∧
    (S0.link .a).role = some .lowerDrum ∧ mayNotSend .lowerDrum 0x40 ∧ ¬ mayNotSend .lowerDrum 0x26 ∧ ¬ mayNotSend .room 0x52 ∧
    S0.codeCheck .d 0x52 = some .serviceOnly ∧ S0.codeCheck .a 0x06 = none ∧ wellSized (.setAttentionMask 0x1000) = false := by
  unfold mayNotSend; decide +kernel

theorem wit_TransmitPlaces :
    (∀ c q g, (S0.link .a).inWork ≠ some ⟨c, q, .response g⟩) ∧
    ((working S0 4 (.response ⟨0x84, 9, .ok, [], true⟩)).link .d).inWork = some ⟨4, 9, .response ⟨0x84, 9, .ok, [], true⟩⟩ ∧
    ((S0.onLink .a fun l => { l with transmit := [⟨0x84, 9, .ok, [], true⟩] }).link .a).keptTaken = true := by
  refine ⟨fun c q g h => ?_, by decide +kernel, by decide +kernel⟩
  cases h

theorem wit_TransmitPlaces_kept :
    let s := S0.onLink .a fun l => { l with transmit := [⟨0x84, 9, .ok, [], true⟩] }
    requestOf (.readCycle .a 3 0) = some (.a, 3, .readCycle 0) ∧ (s.link .a).receive ≠ .ignore ∧ (s.link .a).inWork = none ∧
    (s.link .a).keptTaken = true ∧ s.codeCheck .a 0x27 = none ∧ wellSized (.readCycle 0) = true ∧
    ((receiving s .a .hunt).carryOut .a (.readCycle 0)).1 = .answer .ok [0, 0, 0, 0] ∧
    s.codeCheck .a 0x40 = some .notPermitted ∧ wellSized (.setAttentionMask 0x1000) = false := by decide +kernel

theorem wit_TransmitPlaces_waits :
    let s := (windowed (stocked SV) (openWindow false)).onLink .d fun l => { l with transmit := [⟨0x84, 9, .ok, [], true⟩] }
    let u := s.onPortStore .d fun x => { x with posted := some ⟨0, 0, [1], .claiming, none⟩ }
    requestOf (.storeSum .d 3 0 511) = some (.d, 3, .selfTest 1 0 511) ∧ wellSized (.selfTest 1 0 511) = true ∧
    ((receiving s .d .hunt).carryOut .d (.selfTest 1 0 511)).1 = .wait .testStart ∧
    (s.link .d).receive ≠ .ignore ∧ (s.link .d).inWork = none ∧ (s.link .d).keptTaken = true ∧ s.codeCheck .d 0x31 = none ∧
    s.codeCheck .d 0x30 = none ∧ s.codeCheck .d 0x53 = none ∧ pageInRange 511 448 64 ∧ s.hit .d 511 = some (openWindow false) ∧
    s.spe.pin ≠ some ((511 + (openWindow false).offset) % 512) ∧ (s.portStore .d).posted = none ∧ (u.portStore .d).posted ≠ none ∧
    s.stu.result = .empty ∧ (s.entry 5 0).present = true ∧ (s.entry 5 0).blocks ≠ 0 := by unfold pageInRange; decide +kernel

theorem wit_NoticeQueueTakes : (State.reset.link .a).role = none ∧ (S0.link .a).role ≠ none := by decide +kernel

theorem wit_IdentityRead : ready S0 .a 0x04 := by unfold ready; decide +kernel

theorem wit_NoticeFetched :
    ready S0 .a 0x05 ∧ noticesOf S0 .a = [] ∧ ready (S0.offer .a overrunNotice) .a 0x05 ∧
    noticesOf (S0.offer .a overrunNotice) .a = [overrunNotice] := by unfold ready; decide +kernel

theorem wit_AttentionMaskSet : ready S0 .a 0x06 := by unfold ready; decide +kernel

theorem wit_RoleBound :
    let s := S0.onLink .a fun l => { l with role := none }
    ready S0 .a 0x01 ∧ roleOf 0 = none ∧ roleOf 5 = none ∧ roleOf 1 = some .lowerDrum ∧ roleOf 4 = some .room ∧
    (S0.link .a).role = some .lowerDrum ∧ ready s .a 0x01 ∧ (s.link .a).role = none ∧ s.portOf .room ≠ none ∧
    s.portOf .lowerDrum = none := by unfold ready; decide +kernel

theorem wit_ClientResetClears :
    ready S0 .d 0x03 ∧ ready S0 .a 0x02 ∧ (S0.link .a).role = some (drumRole .lower) ∧ (SV.link .d).role = some .room ∧
    SV.stu.flag = true ∧ slotsDistinct S0 := by unfold ready slotsDistinct; decide +kernel

/-- A drum that is not IDLE, whose port holds its side and has prompts on both sides, and another port to be told (R74). -/
theorem wit_ClientResetClears_phase :
    let s := ((S0.onCycle .lower fun _ => ⟨.wash, 5, true, some 3⟩).onHold .lower fun _ => ⟨some .a, some ⟨0, 120⟩⟩).setPrompts
      [prompt 0 .action .queued, { prompt 1 .info .queued with side := .upper }]
    ready s .a 0x03 ∧ slotsDistinct s ∧ (s.records .lower).cycle.phase ≠ .idle ∧ (s.link .d).role ≠ none ∧
    (s.nq.get .d).mask.getLsbD 3 = true ∧ (s.records .lower).hold.holder = some .a ∧ (s.records .upper).hold.holder ≠ some .a ∧
    (noticesOf (next (.clientReset .a 1) s) .d).getLast? = some ⟨.phase, some .lower, none, phaseCode .wash, 0, false⟩ := by
  unfold ready slotsDistinct; decide +kernel

theorem wit_PostRefused :
    let s := owned S0 (prompt 7 .action (.granted .awaiting))
    ready s .a 0x10 ∧ wellSized (.postPrompt body) = true ∧ sideOf 2 = none ∧ sideOf 0 = some .lower ∧ sideOf 1 = some .upper ∧
    roleReachesSide (s.link .a).role .upper = false ∧ roleReachesSide (s.link .a).role .lower = true ∧
    promptOf .a .lower { body with cls := 6 } = none ∧ (promptOf .a .lower body).isSome = true ∧
    (s.tagged .a 7).isSome = true ∧ body.replace = false := by unfold ready; decide +kernel

theorem wit_PostRefused_full :
    let s := S0.setPrompts ((List.range 16).map fun n => prompt n .info .queued)
    let t := S0.setPrompts ((List.range 48).map fun n => { prompt n .info .queued with owner := .d })
    s.quota .a ≤ s.liveCount .a ∧ s.tagged .a 200 = none ∧ t.liveCount .a < t.quota .a ∧ t.tagged .a 7 = none ∧
    lowestFree t.ptb.prompts = none := by decide +kernel

theorem wit_PostContent :
    (promptOf .a .lower body).isSome = true ∧
    (promptOf .a .lower { body with cls := 4, responseSet := 0, dwell := some 60, expiry := some 3600, urgency := 3 }).isSome = true := by
  decide +kernel

theorem wit_PostContent_record :
    (promptOf .a .lower body).map (fun x => (x.span, x.page)) = some ([.phrase 5], some ⟨[[.text 5]], 1, 0⟩) ∧
    (⟨1, 5⟩, SpanElem.phrase 5) ∈ body.span.zip [SpanElem.phrase 5] ∧ body.repeats = some (2, 10) := by decide +kernel

theorem wit_PostAccepted :
    let s := owned S0 (prompt 7 .action (.granted .awaiting))
    ready s .a 0x10 ∧ wellSized (.postPrompt { body with replace := true }) = true ∧ roleReachesSide (s.link .a).role .lower = true ∧
    (promptOf .a .lower { body with replace := true }).isSome = true ∧ s.tagged .a 7 = some (prompt 7 .action (.granted .awaiting)) ∧
    s.liveCount .a - 1 < s.quota .a ∧ lowestFree [] = some 0 := by unfold ready; decide +kernel

/-- The old prompt on the other side, its expiry at the end; an ASLEEP and an ACTIVE side; a prompt without a page record that may be granted
and one that may not. -/
theorem wit_PostAccepted_sides :
    let o := { prompt 7 .action (.granted .awaiting) with side := .upper, owner := .d, expiryLeft := some 1 }
    let s := S0.setPrompts [o]
    let b := { body with replace := true, page := none }
    ready s .d 0x10 ∧ wellSized (.postPrompt b) = true ∧ (promptOf .d .lower b).isSome = true ∧ s.tagged .d 7 = some o ∧
    o.side ≠ .lower ∧ slotsDistinct s ∧ expiriesLate s (s.tagged .d 7).toList = [7] ∧ (s.records .lower).session.active = false ∧
    (SA.records .lower).session.active = true ∧ (promptOf .d .lower b).map (·.page) = some none ∧
    (S0.onHold .lower fun _ => ⟨some .c, none⟩).eligible { prompt 0 .action .queued with page := none } = false ∧
    S0.eligible { prompt 0 .action .queued with page := none } = true := by unfold ready slotsDistinct; decide +kernel

theorem wit_PromptsClose :
    let s := owned S0 (prompt 47 .info (.granted .dwelling))
    ready s .a 0x11 ∧ s.tagged .a 0 = none ∧ s.tagged .a 47 = some (prompt 47 .info (.granted .dwelling)) ∧
    s.prompt 47 = some (prompt 47 .info (.granted .dwelling)) ∧ (prompt 47 .info (.granted .dwelling)).expiryLeft ≠ none ∧
    s.stu.flag = false ∧ s.sch.turn ≠ some (.prompt 47 .replay) ∧ SV.stu.flag = true ∧ s.prompt 0 = none ∧
    slotsDistinct s := by
  unfold ready slotsDistinct; decide +kernel

theorem wit_PromptsClose_late :
    let s : State := { owned S0 (prompt 47 .action (.granted .awaiting)) with late := ⟨[47], [47], [47]⟩ }
    47 ∈ s.late.expiries ∧ 47 ∈ s.late.dwells ∧ 47 ∉ S0.late.expiries ∧
    (owned S0 (prompt 47 .action (.granted .awaiting))).late = ⟨[], [], []⟩ ∧
    dwellsLate S0 [{ prompt 0 .info (.granted .dwelling) with dwellLeft := 0 }] = [0] ∧
    dwellsLate S0 [{ prompt 0 .info (.granted .dwelling) with dwellLeft := 1 }] = [] ∧
    expiriesLate S0 [{ prompt 0 .action .queued with expiryLeft := some 1 }] = [0] ∧
    expiriesLate S0 [{ prompt 0 .action .queued with expiryLeft := some 2 }] = [] ∧
    expiriesLate SV [{ prompt 0 .action .queued with expiryLeft := some 1 }] = [] := by decide +kernel

theorem wit_RepeatFallsDue :
    let s := owned S0 (prompt 0 .action (.granted .awaiting))
    s.prompt 0 = some (prompt 0 .action (.granted .awaiting)) ∧ (prompt 0 .action (.granted .awaiting)).repeatTimer ≠ none ∧
    ({ s with spe := { s.spe with channel := .recovering } }.onPrompt 0 fun y =>
      { y with repeatTimer := none, repeatDue := true }).speechStep = none := by decide +kernel

/-- In the ordinary case the repeat is granted the idle channel at once. -/
theorem wit_RepeatFallsDue_idle :
    let s := owned (stocked SA) (prompt 0 .action (.granted .awaiting))
    let u : State := { s with late := ⟨[], [], [0]⟩ }
    0 ∈ u.late.repeats ∧ 0 ∉ s.late.repeats ∧ s.prompt 1 = none ∧ s.spe.channel = .idle ∧ (next (.repeatDue 0) s).sch.turn = some (.prompt 0 .again) ∧
    ({ prompt 0 .action (.granted .awaiting) with repeatTimer := none }).repeatTimer = none := by decide +kernel

theorem wit_PromptsRead :
    let s := owned S0 (prompt 47 .action (.granted .awaiting))
    ready s .a 0x12 ∧ s.tagged .a 0 = none ∧ s.tagged .a 47 = some (prompt 47 .action (.granted .awaiting)) ∧ ready s .a 0x13 ∧
    s.prompt 47 = some (prompt 47 .action (.granted .awaiting)) ∧ s.prompt ((47 + 1) % 48) = none := by unfold ready; decide +kernel

theorem wit_PromptsRead_latch :
    let x := { prompt 0 .action (.granted .awaiting) with latch := some 3 }
    (owned S0 x).tagged .a 0 = some x ∧ (owned S0 x).prompt ((47 + 1) % 48) = some x ∧ (owned S0 x).prompt 47 = none ∧
    47 < (48 : Byte).toNat := by decide +kernel

theorem wit_SideChecksRefuse :
    requestOf (.claimSide .a 3 1) = some (.a, 3, .claimSide 1) ∧ ready S0 .a (requestCode (.claimSide 1)) ∧ sideOf 2 = none ∧
    sideOf 1 = some .upper ∧ (S0.link .a).role = some .lowerDrum := by unfold ready; decide +kernel

theorem wit_SessionStarts :
    ready S0 .a 0x20 ∧ sideOf 0 = some .lower ∧ roleReachesSide (S0.link .a).role .lower = true ∧
    (S0.records .lower).session.active = false ∧ ready SA .a 0x20 ∧ (SA.records .lower).session.active = true := by
  unfold ready; decide +kernel

theorem wit_SessionEnds :
    ready SA .a 0x21 ∧ roleReachesSide (SA.link .a).role .lower = true ∧ (SA.records .lower).session.active = true ∧
    (S0.records .lower).session.active = false ∧ SA.ptb.prompts = [] ∧ SA.stu.flag = false ∧ SV.stu.flag = true ∧
    slotsDistinct SA := by
  unfold ready slotsDistinct; decide +kernel

theorem wit_SessionEnds_prompts :
    let s := owned SA (prompt 0 .action (.granted .awaiting))
    let u := SA.onOvertaken .lower fun o => { o with idle := true }
    ready s .a 0x21 ∧ slotsDistinct s ∧ sessionNotices s .lower .a 2 =
      [⟨.closed, some .lower, some 0, 7, 0, false⟩, ⟨.session, some .lower, none, 2, 2, false⟩] ∧
    (u.records .lower).session.active = true ∧ u.stu.flag = false ∧ (u.overtaken.get .lower).idle = true ∧
    (s.overtaken.get .lower).idle = false := by
  unfold ready slotsDistinct; decide +kernel

/-- The end of a session notes the end of a speaking INFO prompt's first delivery; house mode OFF clears a pending replay. -/
theorem test_sessionLeft_notes :
    let s := speakingOf [fresh 0 .info] .first (some (inPlay (.block 0)))
    let u := (sessionLeft s .lower 2)
    let o : State := { (owned S0 (prompt 0 .info (.granted .dwelling))).onSchedule .lower fun z => { z with replay := some ⟨0, false, false⟩ } with
      cfg := { S0.cfg with mode := .off } }
    s.sch.ending = none ∧ u.sch.ending = some .delivered ∧ (u.records .lower).session.active = false ∧
    (o.schedule .lower).replay ≠ none ∧ ((houseTaken o .lower).schedule .lower).replay = none := by decide +kernel

theorem wit_LanguageAndModeSet :
    ready SA .a 0x22 ∧ ready SA .a 0x23 ∧ fourOf 3 = some 3 ∧ fourOf 4 = none ∧ speechModeOf 2 = some .off ∧ speechModeOf 0 = some .on ∧
    (SA.records .lower).session.language = 0 ∧ (SA.records .lower).session.mode = .on ∧ (SA.region .lower).showsPrompt = false := by
  unfold ready; decide +kernel

/-- A prompt shows on LOWER and a read for it is under way: a new language renders it again, the read's bytes dropped (R143). -/
theorem wit_LanguageAndModeSet_shown :
    let s := moving ((owned SA (prompt 0 .action (.granted .awaiting))).onRegion .lower fun r =>
      { r with content := .prompt 0 ⟨[[.blank]], 0, 0⟩ }) (.display .lower 3 false)
    ready s .a 0x22 ∧ (s.records .lower).session.active = true ∧ (s.records .lower).session.language ≠ 3 ∧
    (s.region .lower).content = .prompt 0 ⟨[[.blank]], 0, 0⟩ ∧ s.psc.transfer = some (.display .lower 3 false) := by
  unfold ready; decide +kernel

theorem wit_ModeOffSilencesSide :
    slotsDistinct (owned SA (prompt 0 .action (.granted .awaiting))) ∧ (SA.records .lower).session.mode ≠ .off := by
  unfold slotsDistinct; decide +kernel

/-- Mode OFF by a request, by the SPEECH key in ASSIST, and in a speaking first delivery. -/
theorem wit_ModeOffSilencesSide_events :
    let x := fresh 0 .action
    let s := speakingOf [x] .first (some (inPlay (.block 0)))
    let u := s.onSession .lower fun y => { y with mode := .assist }
    ready s .a 0x23 ∧ roleReachesSide (s.link .a).role .lower = true ∧ slotsDistinct s ∧ speechModeOf 2 = some .off ∧
    (s.records .lower).session.active = true ∧ (s.records .lower).session.mode ≠ .off ∧ s.sch.turn = some (.prompt 0 .first) ∧
    s.prompt 0 = some x ∧ (s.schedule .lower).replay = none ∧ (u.records .lower).session.mode = .assist ∧ keysAccepted (pressed u .speech) ∧
    slotsDistinct (pressed u .speech) := by unfold ready slotsDistinct keysAccepted; decide +kernel

theorem wit_ModeOffSilencesSide_key :
    let u := SA.onSession .lower fun y => { y with mode := .assist }
    ∃ v, makesKeyEvent (pressed u .speech) (.press .lower .speech) .lower .speech false v :=
  ⟨_, by decide +kernel, .inl ⟨rfl, rfl, by decide +kernel, ⟨3, by decide +kernel⟩, rfl⟩⟩

theorem wit_SideClaimed :
    let s := S0.onHold .lower fun _ => ⟨some .a, some ⟨0, 120⟩⟩
    ready S0 .a 0x24 ∧ (S0.records .lower).hold.holder = none ∧ ready s .a 0x24 ∧ (s.records .lower).hold.holder = some .a ∧
    ready s .c 0x24 ∧ roleReachesSide (s.link .c).role .lower = true := by unfold ready; decide +kernel

theorem wit_regionsOwned_rivals : regionsOwned rivals := by
  refine ⟨by unfold slotsDistinct; decide +kernel, ?_⟩
  intro sd n h
  cases sd
  · cases h; exact ⟨_, List.mem_cons_self .., rfl, rfl, rfl, _, rfl⟩
  · cases h

/-- The queued SAFETY prompt tops the region; once port C holds the side, the owner is no longer eligible. -/
theorem wit_SideClaimed_regions :
    regionTopped rivals .lower none { prompt 1 .safety .queued with owner := .b } ∧
    mayPresent rivals (prompt 0 .action (.granted .awaiting)) ∧
    ¬ mayPresent (rivals.onHold .lower fun _ => ⟨some .c, none⟩) (prompt 0 .action (.granted .awaiting)) ∧
    (∀ x, ¬ regionCandidate rivals .upper x) := by
  refine ⟨⟨⟨by decide +kernel, rfl, rfl, fun h e => by cases e⟩, fun y hy hne => ?_⟩, fun h e => (by cases e), fun e => ?_, ?_⟩
  · rcases List.mem_cons.1 hy.1 with rfl | h
    · exact .inl (by decide)
    · rcases List.mem_cons.1 h with rfl | h
      · exact absurd rfl hne
      · cases h
  · rcases e .c rfl with h | h | h <;> cases h
  · rintro x ⟨h, h', _⟩
    rcases List.mem_cons.1 h with rfl | h
    · cases h'
    · rcases List.mem_cons.1 h with rfl | h
      · cases h'
      · cases h

/-- The newcomer is granted by entering PRESENTING and a HELD one is not; the old owner is displaced from AWAITING, its replay pending. -/
theorem wit_SideClaimed_handed :
    slotsDistinct rivals ∧ entersPresenting { prompt 1 .safety .queued with owner := .b } ∧
    ¬ entersPresenting (prompt 0 .action (.held .awaiting)) ∧ rivals.prompt 1 = some { prompt 1 .safety .queued with owner := .b } ∧
    (rivals.prompt 0).map (promptDisplaced rivals) = some (prompt 0 .action (.held .awaiting)) ∧
    (∃ x ∈ rivals.ptb.prompts, (rivals.schedule .lower).owner = some x.slot) ∧
    ({ prompt 0 .action .queued with page := none }).page = none := by
  refine ⟨by unfold slotsDistinct; decide +kernel, .inl rfl, ?_, by decide +kernel, by decide +kernel, ⟨_, List.mem_cons_self .., rfl⟩, rfl⟩
  rintro (h | h) <;> cases h

/-- Port C holds LOWER under a speaking prompt without a page record, and under none. -/
theorem wit_SideClaimed_pageless :
    let x := { fresh 0 .action with page := none }
    let s := (speakingOf [x] .first none).onHold .lower fun _ => ⟨some .c, none⟩
    (∃ y ∈ s.ptb.prompts, y.side = .lower ∧ y.page = none ∧ ¬ mayPresent s y ∧ (∃ a, y.state = .granted a) ∧ s.speaks y.slot = true) ∧
    slotsDistinct s ∧ s.sch.ending = none ∧ (s.reviewPageless .lower).sch.ending = some .lost ∧
    (∀ y ∈ SA.ptb.prompts, y.side = .lower → y.page = none → (∃ a, y.state = .granted a) → SA.speaks y.slot = true → mayPresent SA y) := by
  refine ⟨⟨_, List.mem_cons_self .., rfl, rfl, fun h => ?_, ⟨_, rfl⟩, by decide +kernel⟩, by unfold slotsDistinct; decide +kernel,
    by decide +kernel, by decide +kernel, fun y h => (by cases h)⟩
  rcases h .c rfl with h | h | h <;> cases h

/-- END SESSION with the idle timer at its end overtakes the expiry (R56, R58; log 36). -/
theorem test_end_session_overtakes :
    let s := next (.endSession .a 1 0) (SA.onSession .lower fun x => { x with idle := some ⟨12000, 120⟩ })
    (s.overtaken.get .lower).idle = true ∧ (s.records .lower).session.active = false := by decide +kernel

/-- RELEASE SIDE with the lapse timer at its end overtakes the lapse (R65, R66; log 36). -/
theorem test_release_overtakes :
    let s := next (.releaseSide .a 1 0) (S0.onHold .lower fun _ => ⟨some .a, some ⟨12000, 120⟩⟩)
    (s.overtaken.get .lower).lapse = true ∧ (s.records .lower).hold = ⟨none, none⟩ := by decide +kernel

/-- An overtaken lapse leaves a hold claimed since (R66; log 36). -/
theorem test_overtaken_lapse :
    let s := (S0.onHold .lower fun _ => ⟨some .a, some ⟨0, 120⟩⟩).onOvertaken .lower fun o => { o with lapse := true }
    ((next (.holdLapse .lower) s).records .lower).hold.holder = some .a := by decide +kernel

/-- A client reset overtakes the lapse of the hold it ends and the fall of the second it stops (R67, R74; log 36). -/
theorem test_client_reset_overtakes :
    let s := (S0.onHold .lower fun _ => ⟨some .a, some ⟨12000, 120⟩⟩).onCycle .lower fun _ => ⟨.wash, 9, true, some 100⟩
    (next (.clientReset .a 1) s).overtaken = ⟨⟨false, true, true, false⟩, ⟨false, false, false, false⟩⟩ := by decide +kernel

/-- BIND ROLE with the unbound timer at its end overtakes it (R37; log 36). -/
theorem test_bind_overtakes :
    let s := (S0.onLink .a fun l => { l with role := none }).onSchedule .lower fun x => { x with unbound := ⟨500, true⟩ }
    ((next (.bindRole .a 1 1) s).overtaken.get .lower).unbound = true := by decide +kernel

theorem wit_SideFreed_overtaken :
    let s := (S0.onHold .lower fun _ => ⟨some .a, some ⟨12000, 120⟩⟩).onOvertaken .lower fun o => { o with lapse := true }
    (s.records .lower).hold.holder = some .a ∧ s.stu.flag = false ∧ (s.overtaken.get .lower).lapse = true ∧
    (S0.overtaken.get .lower).lapse = false := by decide +kernel

theorem wit_SideFreed :
    let s := S0.onHold .lower fun _ => ⟨some .a, some ⟨0, 120⟩⟩
    ready s .a 0x25 ∧ (s.records .lower).hold.holder = some .a ∧ s.stu.flag = false ∧ ready S0 .a 0x25 ∧
    (S0.records .lower).hold.holder ≠ some .a := by unfold ready; decide +kernel

theorem wit_CycleWritten :
    ready S0 .a 0x26 ∧ (7 : Byte).toNat < 8 ∧ sideOf 0 = some .lower ∧ roleReachesSide (S0.link .a).role .lower = true ∧
    (7 : Byte).getLsbD 0 = true ∧ 8 < (9 : Byte).toNat ∧ 35999 < (36000 : Word16).toNat ∧ phaseOf 8 = some .fault ∧
    (35999 : Word16).toNat ≤ 35999 ∧ boolOf 1 = some true := by unfold ready; decide +kernel

theorem wit_CycleRead : ready S0 .c 0x27 ∧ (S0.link .c).role ≠ none ∧ sideOf 2 = none ∧ sideOf 1 = some .upper := by
  unfold ready; decide +kernel

theorem wit_SideTimersFall :
    let s := S0.onCycle .lower fun _ => ⟨.wash, 1, true, some 100⟩
    let u := S0.startUnbound .lower
    (s.records .lower).cycle.running = true ∧ (s.records .lower).cycle.countdown ≠ 0 ∧ (S0.records .lower).cycle.running = false ∧
    (u.schedule .lower).unbound.running = true ∧ (u.schedule .lower).owner = none ∧ (S0.schedule .lower).unbound.running = false := by
  decide +kernel

theorem wit_SideTimersFall_overtaken :
    let s := (S0.onCycle .lower fun _ => ⟨.wash, 1, true, some 0⟩).onOvertaken .lower fun o => { o with second := true }
    let u := (S0.startUnbound .lower).onOvertaken .lower fun o => { o with unbound := true }
    (s.records .lower).cycle.running = true ∧ (s.overtaken.get .lower).second = true ∧ (S0.overtaken.get .lower).second = false ∧
    (u.overtaken.get .lower).unbound = true ∧ ((S0.startUnbound .lower).overtaken.get .lower).unbound = false := by
  decide +kernel

theorem wit_PageWriteTaken :
    let s := windowed S0 (openWindow false)
    ready s .d 0x30 ∧ pageInRange 511 448 64 ∧ ¬ pageInRange 511 449 64 ∧ ¬ pageInRange 0 0 0 ∧ (s.portStore .d).posted = none ∧
    s.hit .d 511 = some (openWindow false) ∧ S0.hit .d 511 = none ∧ s.spe.pin ≠ some ((511 + (openWindow false).offset) % 512) ∧
    (windowed S0 (openWindow true)).hit .d 0 = some (openWindow true) ∧
    (windowed S0 { openWindow false with write := false }).hit .d 0 = some { openWindow false with write := false } ∧
    ((withPosted S0 .d (some ⟨0, 0, [1], .claiming, none⟩)).portStore .d).posted ≠ none := by unfold ready pageInRange; decide +kernel

theorem wit_PageReadTaken :
    let s := windowed S0 (openWindow false)
    ready s .d 0x31 ∧ pageInRange 0 0 1 ∧ s.hit .d 0 = some (openWindow false) ∧ (openWindow false).read = true ∧
    (windowed S0 { openWindow false with read := false }).hit .d 0 = some { openWindow false with read := false } ∧
    ready S0 .a 0x32 ∧ (S0.portStore .a).error = none ∧
    ((S0.onPortStore .a fun x => { x with error := some ⟨.noWrite, 5, 6⟩ }).portStore .a).error = some ⟨.noWrite, 5, 6⟩ := by
  unfold ready pageInRange; decide +kernel

theorem wit_WindowsTranslate :
    ready S0 .d 0x33 ∧ (15 : Byte).toNat < 16 ∧ 3 < (4 : Byte).toNat ∧ (3 : Byte) = portNumber .d ∧ (511 : Word16).toNat ≤ 511 := by
  unfold ready; decide +kernel

theorem wit_PhraseSet :
    ready S0 .d 0x34 ∧ (3 : Byte).toNat < 4 ∧ storeCanonical S0 ∧ (254 : Byte) ≠ 0xFF ∧ fourOf 3 = some 3 ∧
    511 < (512 : Word16).toNat := by unfold ready storeCanonical; decide +kernel

theorem wit_PhraseRead : ready S0 .a 0x35 ∧ (S0.link .a).role ≠ none ∧ 3 < (4 : Byte).toNat ∧ fourOf 3 = some 3 := by
  unfold ready; decide +kernel

theorem wit_BusGranted_idle :
    (moving S0 (.test 0 0 false)).psc.transfer ≠ none ∧ S0.nextFetch = none ∧ S0.displayTurn = none ∧ S0.clientTurn = none ∧
    S0.testClaim = none ∧ S0.psc.transfer = none := by decide +kernel

theorem wit_BusGranted_clients :
    let w := windowed S0 (openWindow true)
    let u := withPosted w .d (some ⟨511, 0, [1], .claiming, none⟩)
    (working S0 0x31 (.read 511 0 64 false)).clientTurn = some (.d, .read 511 0 64) ∧
    (working S0 0x30 (.write 511 448 [1])).clientTurn = some (.d, .write 511 448 [1]) ∧
    u.clientTurn = some (.d, .posted ⟨511, 0, [1], .claiming, none⟩) ∧ u.hit .d 511 = some (openWindow true) ∧
    u.spe.pin ≠ some ((openWindow true).physical 511) := by decide +kernel

theorem wit_BusGranted_units :
    let s := next (.postPrompt .a 1 body) (stocked S0)
    let t := resultSet SV (.running (.storeSum 0 511 0 0))
    let u := working t 0x53 .testStart
    s.psc.transfer = none ∧ s.nextFetch.isSome = true ∧ s.displayTurn = some .lower ∧ (s.region .lower).render.isSome = true ∧
    t.testClaim = some (0, 0) ∧ t.testPort = none ∧ t.clientTurn = none ∧ u.testPort = some .d ∧ (u.link .d).keptTaken = false := by
  decide +kernel

theorem wit_BusGranted_display :
    let s := (stocked S0).onRegion .lower fun r => { r with render := some ⟨0, [], [(1, .text 5)], 3⟩ }
    s.psc.transfer = none ∧ s.nextFetch = none ∧ s.displayTurn = some .lower ∧
    (s.region .lower).render = some ⟨0, [], [(1, .text 5)], 3⟩ := by decide +kernel

/-- The Speech Engine's claim; renders of both regions, LOWER read last; a port behind another in the circular order; a test's slot. -/
theorem wit_BusGranted_claims :
    let s := speakingOf [fresh 0 .action] .first (some (inPlay (.ready 0)))
    let d := (S0.onRegion .lower fun r => { r with render := some ⟨0, [], [(1, .text 5)], 3⟩ }).onRegion .upper fun r =>
      { r with render := some ⟨0, [], [(1, .text 5)], 3⟩ }
    s.nextFetch = some ⟨3, 1, phrase5⟩ ∧ s.psc.transfer = none ∧ d.displayTurn = some .lower ∧
    ({ d with dsp := { d.dsp with lastRead := some .lower } } : State).displayTurn = some .upper ∧
    (resultSet SV (.running (.speechCheck phrase5 1 0))).stu.result = .running (.speechCheck phrase5 1 0) ∧
    turnsAway (some .a) .a = 3 ∧ turnsAway (some .a) .b = 0 ∧ turnsAway none .d = 3 ∧ turnsAway (some .d) .a = 0 := by decide +kernel

theorem wit_BusGranted_speech : speechClaims (speakingOf [fresh 0 .action] .first (some (inPlay (.ready 0)))) ⟨3, 1, phrase5⟩ :=
  ⟨⟨[], [⟨3, 2, phrase5⟩], by decide +kernel, fun _ h => (by cases h)⟩, by decide +kernel, by decide +kernel, by decide +kernel,
    .inr (.inl (by decide +kernel))⟩

theorem wit_PostedWriteSettles :
    let b : Posted := ⟨511, 0, [1], .claiming, none⟩
    let s := withPosted S0 .d (some b)
    let u := windowed s { openWindow true with write := false }
    let v := windowed s (openWindow true)
    let p := { v with spe := { v.spe with pin := some 511 } }
    (s.portStore .d).posted = some b ∧ s.hit .d 511 = none ∧ u.hit .d 511 = some { openWindow true with write := false } ∧
    v.hit .d 511 = some (openWindow true) ∧ v.spe.pin ≠ some ((openWindow true).physical 511) ∧
    p.spe.pin = some ((openWindow true).physical 511) ∧
    ((working S0 0x31 (.read 5 0 1 true)).link .d).inWork = some ⟨0x31, 9, .read 5 0 1 true⟩ ∧
    ((working v 0x30 (.heldWrite 5 0 [1])).link .d).inWork = some ⟨0x30, 9, .heldWrite 5 0 [1]⟩ ∧
    ((working v 0x30 (.heldWrite 5 0 [1])).link .d).keptTaken = false := by decide +kernel

theorem wit_TransferEnds :
    let r := moving (working S0 0x31 (.read 511 448 64 false)) (.read .d 511 448 64)
    let w := moving (working S0 0x30 (.write 511 511 [1])) (.write .d 511 511 [1])
    let u := moving S0 (.posted .d 511 511 [1])
    let t := moving (resultSet SV (.running (.storeSum 0 511 4095 7))) (.test 511 7 false)
    S0.psc.transfer = none ∧ r.psc.transfer = some (.read .d 511 448 64) ∧
    (r.link .d).inWork = some ⟨0x31, 9, .read 511 448 64 false⟩ ∧ (r.link .d).keptTaken = false ∧
    w.psc.transfer = some (.write .d 511 511 [1]) ∧ (w.link .d).inWork = some ⟨0x30, 9, .write 511 511 [1]⟩ ∧ storeCanonical w ∧
    u.psc.transfer = some (.posted .d 511 511 [1]) ∧ storeCanonical u ∧ t.psc.transfer = some (.test 511 7 false) ∧
    t.stu.result = .running (.storeSum 0 511 4095 7) ∧ 4095 + 1 = 8 * (511 - 0 + 1) := by unfold storeCanonical; decide +kernel

/-- Four copies and one to go: the one finished, else the first that is of no page ahead; a write to a page that is not pinned. -/
theorem wit_TransferEnds_room :
    let c := fun n f => (⟨n, phrase5, [], f⟩ : PageCopy)
    let s := moving (speakingOf [fresh 0 .action] .first (some (inPlay (.ready 0)))) (.speech 3 1 phrase5)
    let u := prefetching s [c 7 false, c 8 true, c 9 false, c 10 false]
    let v := prefetching s [c 7 false, c 8 false, c 9 false, c 10 false]
    let past := fun (x : State) => x.spe.prefetch.filter fun y => decide (x.spe.pin ≠ some y.page) && decide (y.page ∉ (slotsAhead x).map (·.page))
    u.stillUseful 3 phrase5 = true ∧ 4 ≤ u.spe.prefetch.length ∧ (∀ y ∈ u.spe.prefetch, y.page ≠ 3) ∧
    (past u).find? (·.finished) = some (c 8 true) ∧ (∀ y ∈ past v, y.finished = false) ∧ (past v).head? = some (c 7 false) ∧
    (working S0 0x30 (.write 511 511 [1])).spe.pin ≠ some 511 := by decide +kernel

theorem wit_TransferEnds_units :
    (moving S0 (.speech 3 1 ⟨5, 0, 3, 2, true⟩)).psc.transfer = some (.speech 3 1 ⟨5, 0, 3, 2, true⟩) ∧
    (moving S0 (.display .lower 3 false)).psc.transfer = some (.display .lower 3 false) ∧
    (moving S0 (.test 0 0 true)).psc.transfer = some (.test 0 0 true) := by decide +kernel

theorem wit_TransferEnds_kept :
    let k := fun (s : State) => s.onLink .d fun l => { l with transmit := [⟨0x84, 9, .ok, [], true⟩] }
    let r := k (moving (working S0 0x31 (.read 511 448 64 false)) (.read .d 511 448 64))
    let w := k (moving (working S0 0x30 (.write 511 511 [1])) (.write .d 511 511 [1]))
    let t := moving (resultSet SV (.running (.speechCheck ⟨5, 0, 3, 2, true⟩ 1 0))) (.test 3 2 false)
    r.psc.transfer = some (.read .d 511 448 64) ∧ (r.link .d).inWork = some ⟨0x31, 9, .read 511 448 64 false⟩ ∧
    (r.link .d).keptTaken = true ∧ w.psc.transfer = some (.write .d 511 511 [1]) ∧ (w.link .d).keptTaken = true ∧ storeCanonical w ∧
    t.psc.transfer = some (.test 3 2 false) ∧ t.stu.result = .running (.speechCheck ⟨5, 0, 3, 2, true⟩ 1 0) ∧ 1 + 1 = 2 ∧
    ¬ faulted ((List.range 64).map fun i => readByte t.psc.memory 3 (64 * 2 + i)) ∧
    faulted [0, 0, 64, 0] ∧ faulted [0, 0, 63, 1] := by unfold storeCanonical faulted; decide +kernel

theorem wit_TransferEnds_speech :
    let s := moving (next (.postPrompt .a 1 body) (stocked S0)) (.speech 3 1 ⟨5, 0, 3, 2, true⟩)
    let c : PageCopy := ⟨3, ⟨5, 0, 3, 2, true⟩, [], true⟩
    s.stillUseful 3 ⟨5, 0, 3, 2, true⟩ = true ∧ s.stillUseful 4 ⟨5, 0, 3, 2, true⟩ = false ∧ s.spe.prefetch = [] ∧
    (prefetching s [c]).stillUseful 3 ⟨5, 0, 3, 2, true⟩ = true ∧ c ∈ (prefetching s [c]).spe.prefetch ∧ c.page = 3 := by
  decide +kernel

theorem wit_TransferEnds_display :
    let s := moving (next (.postPrompt .a 1 body) (stocked S0)) (.display .lower 3 false)
    (s.region .lower).render = some ⟨0, [], [(1, .text 5)], 3⟩ ∧ s.resolve 5 0 = some ⟨5, 0, 3, 2, true⟩ ∧
    s.resolve 6 0 = none := by decide +kernel

theorem wit_ConfigSetAndRead :
    ready S0 .d 0x40 ∧ configInRange houseBody ∧ ¬ configInRange { houseBody with idle := 19 } ∧ ready S0 .d 0x41 := by
  unfold ready configInRange; decide +kernel

/-- The fair turn setting changed, with both sides ACTIVE. -/
theorem wit_ConfigSetAndRead_fair :
    let s := SA.onSession .upper fun x => { x with active := true, idle := some ⟨0, 120⟩ }
    ready s .d 0x40 ∧ configInRange { houseBody with fairTurn := 0 } ∧ s.cfg.fairTurn = true ∧ (s.records .lower).session.active = true ∧
    (s.records .upper).session.active = true ∧ (next (.setConfig .d 1 { houseBody with fairTurn := 0 }) s).cfg.fairTurn = false := by
  unfold ready configInRange; decide +kernel

theorem wit_LibraryTablesSet :
    ready S0 .d 0x42 ∧ storeCanonical S0 ∧ 15 < (16 : Byte).toNat ∧ 8 < (9 : Byte).toNat ∧ (15 : Byte).toNat ≤ 15 ∧ (8 : Byte).toNat ≤ 8 ∧
    ready S0 .d 0x43 ∧
    (0x1F : Byte).toNat < 0x20 ∧ 0x20 ≤ (0xDF : Byte).toNat ∧ (0xDF : Byte).toNat ≤ 0xDF ∧ ready S0 .d 0x44 := by
  unfold ready storeCanonical; decide +kernel

theorem wit_LibraryTablesSet_lists :
    (List.replicate 8 ((1 : Byte), (0xFF : Byte))).length = (8 : Byte).toNat ∧
    (∀ x ∈ List.replicate 8 ((1 : Byte), (0xFF : Byte)), x.2 ≠ 0) ∧
    (∃ b ∈ List.replicate 32 (40 : Byte), 39 < b.toNat ∧ b ≠ 0xFF) ∧ (List.replicate 32 (40 : Byte)).length = 32 ∧
    (∀ b ∈ List.replicate 32 (39 : Byte), b.toNat ≤ 39 ∨ b = 0xFF) := by
  refine ⟨rfl, fun x h => ?_, ⟨40, by simp, by decide⟩, by simp, fun b h => ?_⟩
  · rw [List.eq_of_mem_replicate h]; decide
  · rw [List.eq_of_mem_replicate h]; decide

theorem wit_ServiceModeChanged :
    ready S0 .d 0x50 ∧ ready S0 .d 0x51 ∧ S0.stu.flag = false ∧ ready SV .d 0x51 ∧ SV.stu.flag = true ∧ SV.portOf .room = some .d ∧
    (resultSet SV (.running (.keyCheck 100 0 0))).stu.result = .running (.keyCheck 100 0 0) ∧
    ({ SV with stu := { SV.stu with audition := some ⟨5, 0⟩ } } : State).stu.audition ≠ none := by unfold ready; decide +kernel

theorem wit_ServiceModeChanged_both :
    let s : State := { SV with stu := ⟨true, .running (.keyCheck 100 0 0), some ⟨5, 0⟩, false⟩ }
    ready s .d 0x51 ∧ s.stu.flag = true ∧ s.portOf .room = some .d ∧ s.stu.result = .running (.keyCheck 100 0 0) ∧
    s.stu.audition ≠ none := by unfold ready; decide +kernel

theorem wit_ServiceModeChanged_speaking :
    let s := auditioning (some (inPlay (.block 0)))
    ready s .d 0x51 ∧ s.stu.flag = true ∧ s.stu.audition ≠ none ∧ s.sch.turn = some .audition ∧
    (next (.leaveService .d 1) s).spe.channel = .idle := by unfold ready; decide +kernel

theorem wit_LampTestSet : ready SV .d 0x51 ∧ SV.stu.flag = true ∧ ready SV .d 0x52 ∧ 1 < (2 : Byte).toNat ∧ (1 : Byte).toNat ≤ 1 := by unfold ready; decide +kernel

theorem wit_SelfTestsStarted :
    ready SV .d 0x53 ∧ SV.stu.result = .empty ∧ (resultSet SV (.done .keyCheck .pass 0 0)).stu.result ≠ .empty ∧
    254 < (255 : Word16).toNat ∧ (254 : Word16).toNat ≤ 254 ∧ (3 : Word16).toNat = (3 : Fin 4).val := by unfold ready; decide +kernel

theorem wit_TestResultsRead :
    ready S0 .d 0x54 ∧ S0.stu.result = .empty ∧
    (resultSet S0 (.running (.keyCheck 100 0 0))).stu.result = .running (.keyCheck 100 0 0) ∧
    (resultSet S0 (.done .keyCheck .pass 65535 0)).stu.result = .done .keyCheck .pass 65535 0 := by unfold ready; decide +kernel

theorem wit_SpeechServed :
    let r := { SV with spe := { SV.spe with channel := .recovering } }
    ready SV .d 0x55 ∧ (254 : Byte) ≠ 0xFF ∧ fourOf 3 = some 3 ∧ r.stu.audition = none ∧ r.owesInVain = false ∧
    r.spe.channel = .recovering ∧ ready S0 .d 0x56 ∧ S0.spe.channel ≠ .silenced ∧ S0.spe.channel ≠ .recovering ∧
    ({ SV with stu := { SV.stu with audition := some ⟨5, 0⟩ } } : State).stu.audition ≠ none ∧ SV.portOf .room = some .d ∧
    ({ r with spe := { r.spe with channel := .idle, recovery := none } } : State).speechStep = none ∧
    ({ r with cfg := { r.cfg with lockOnFault := true }, spe := { r.spe with resets := 2 } } : State).cfg.lockOnFault = true ∧
    r.cfg.lockOnFault = false := by unfold ready; decide +kernel

theorem wit_SpeechServed_audition :
    let s : State := { SV with stu := ⟨true, .empty, some ⟨5, 0⟩, false⟩ }
    let u : State := { s with sch := { s.sch with turn := some .audition }, spe := { s.spe with channel := .speaking } }
    let m : State := { SV with spe := { SV.spe with channel := .silenced } }
    ready s .d 0x55 ∧ s.sch.turn ≠ some .audition ∧ ready u .d 0x55 ∧ u.sch.turn = some .audition ∧ u.stu.audition ≠ none ∧
    ready m .d 0x56 ∧ m.spe.channel = .silenced ∧ (S0.schedule .lower).replay = none ∧
    (S0.schedule .upper).replay = none := by
  unfold ready; decide +kernel

theorem candidate_fresh (cls : PClass) : channelCandidate (owned SA (fresh 0 cls)) (fresh 0 cls) .first :=
  ⟨List.mem_cons_self .., fun _ h => (by cases h), fun _ h => (by cases h), .inr rfl, by cases cls <;> decide +kernel,
    rfl, Nat.zero_lt_one⟩

/-- In IDLE: no candidate and no audition; an audition alone; a prompt alone, whose delivery begins or goes on; an audition beside a SAFETY
prompt of the same rank, and above a CONFIRM prompt. -/
theorem wit_SpeechServed_granted :
    (∀ x k, ¬ channelCandidate SA x k) ∧ ¬ auditionWaiting SA ∧ auditionWaiting (auditionAsked SA ⟨5, 0⟩) ∧
    SA.spe.channel = .idle ∧ (owned SA (fresh 0 .confirm)).owesInVain = false ∧ slotsDistinct (owned SA (fresh 0 .confirm)) ∧
    (∀ y k', channelCandidate (owned SA (fresh 0 .confirm)) y k' → y = fresh 0 .confirm) ∧
    turnBegins (owned SA (fresh 0 .confirm)) (fresh 0 .confirm) .first ∧
    ¬ turnBegins (owned SA (fresh 0 .confirm)) { fresh 0 .confirm with hasSpoken := true } .first ∧
    auditionAbove (auditionAsked SA ⟨5, 0⟩) (fresh 0 .confirm) ∧
    ¬ auditionAbove (auditionAsked SA ⟨5, 0⟩) { fresh 0 .safety with urgency := 3 } := by
  refine ⟨fun x k h => (by cases h.1), fun h => h.1 rfl, ⟨by decide +kernel, fun h => (by cases h)⟩, by decide +kernel, by decide +kernel,
    by unfold slotsDistinct; decide +kernel, fun y k' h => ?_, rfl, (by intro h; cases h), .inl (by decide), ?_⟩
  · rcases List.mem_cons.1 h.1 with rfl | h
    · rfl
    · cases h
  · rintro (h | h | ⟨_, _, h, _⟩)
    · exact h rfl
    · revert h; decide
    · cases h

theorem wit_ContactsFollowed :
    State.reset.ksc.scanning = false ∧ S0.ksc.scanning = true ∧
    ((S0.onKey .lower .yes fun r => { r with state := .making 3 }).keyRecord .lower .yes).state = .making 3 ∧
    ((S0.onKey .lower .yes fun r => { r with state := .breaking 3 }).keyRecord .lower .yes).state = .breaking 3 ∧
    (S0.keyRecord .lower .yes).spent = false ∧ (S0.keyRecord .lower .yes).state ≠ .down ∧ SA.dsp.power = .on ∧
    S0.dsp.power = .off ∧ S0.keyCheckRuns = false ∧
    ((S0.onKey .lower .yes fun r => { r with spent := true }).keyRecord .lower .yes).spent = true := by decide +kernel

theorem wit_ContactsFollowed_overtaken :
    let s := S0.onKey .lower .yes fun r => { r with state := .making 0, makeLate := true }
    let u := S0.onKey .lower .yes fun r => { r with state := .breaking 0, breakLate := true }
    (s.keyRecord .lower .yes).makeLate = true ∧ (u.keyRecord .lower .yes).breakLate = true ∧
    (S0.keyRecord .lower .yes).makeLate = false ∧ (S0.keyRecord .lower .yes).breakLate = false := by decide +kernel

/-- A contact that opens with its make at 30 ms overtakes the confirmation (R75; log 36). -/
theorem test_contact_overtakes_make :
    ((next (.keyContactChange .lower .yes false) (S0.onKey .lower .yes fun r => { r with closed := true, state := .making 3 })).keyRecord
      .lower .yes) = ⟨false, .idle, 0, false, true, false⟩ := by decide +kernel

/-- A tone that is replaced with its note at the end overtakes that end, as does a side gone ACTIVE with the panel-off timer's and leaving
service mode with a KEY CHECK's (R140, R152, R185; log 36). -/
theorem test_panel_tone_check_overtaken :
    let g : State := { S0 with tgn := { S0.tgn with current := some ⟨[⟨1, 1⟩], .click, .lower, 0, 0⟩ } }
    let d : State := { S0 with dsp := { S0.dsp with power := .dim, panelOff := some ⟨6000, 60⟩ } }
    (g.requestTone 14 .lower .click).tgn.noteLate = true ∧ (next (.startSession .a 1 0) d).dsp.offLate = true ∧
    (next (.leaveService .d 1) (resultSet SV (.running (.keyCheck 100 100 0)))).stu.checkLate = true := by decide +kernel

theorem wit_PanelAndToneTimers_overtaken :
    let s : State := { S0 with dsp := { S0.dsp with offLate := true }, tgn := { S0.tgn with noteLate := true } }
    s.dsp.offLate = true ∧ s.tgn.noteLate = true ∧ S0.tgn.noteLate = false := by decide +kernel

theorem wit_TestResultsRead_overtaken :
    ({ S0 with stu := { S0.stu with checkLate := true } } : State).stu.checkLate = true ∧ S0.stu.checkLate = false := by decide +kernel

theorem makes_pressed (s : State) (k : Key) (h : ((pressed s k).keyRecord .lower k).spent = false)
    (h' : ((pressed s k).keyRecord .lower k).state = .breaking 3)
    (h'' : ((pressed s k).keyRecord .lower k).breakLate = false := by decide +kernel) :
    makesKeyEvent (pressed s k) (.press .lower k) .lower k false ((pressed s k).onKey .lower k fun r => { r with state := .idle }) :=
  ⟨h, .inl ⟨rfl, rfl, h'', ⟨3, h'⟩, rfl⟩⟩

theorem wit_KeysRouted :
    (∃ u, makesKeyEvent (pressed SA .yes) (.press .lower .yes) .lower .yes false u) ∧ keysAccepted (pressed SA .yes) ∧
    (∀ x, ¬ focused (pressed SA .yes) .lower x) ∧ (pressed S0 .yes).dsp.power = .off ∧ (pressed S0 .yes).keyCheckRuns = false ∧
    (resultSet (pressed SV .yes) (.running (.keyCheck 100 0 65535))).keyCheckRuns = true := by
  refine ⟨⟨_, makes_pressed SA .yes (by decide +kernel) (by decide +kernel)⟩, by unfold keysAccepted; decide +kernel, ?_,
    by decide +kernel, by decide +kernel, by decide +kernel⟩
  rintro x ⟨⟨n, h, _⟩, _⟩
  cases (h : (none : Option Nat) = some n)

theorem focused_owned (s : State) (k : Key) (x : Prompt) (h : ((pressed (owned s x) k).schedule .lower).owner = some x.slot)
    (h' : (pressed (owned s x) k).prompt x.slot = some x) (hs : x.state = .granted .awaiting) (hr : x.responseSet ≠ 0) :
    focused (pressed (owned s x) k) .lower x := ⟨⟨x.slot, h, h'⟩, .inr hs, hr⟩

theorem wit_KeysRouted_rejected :
    let x := prompt 47 .action (.granted .awaiting)
    (∃ u, makesKeyEvent (pressed (owned SA x) .no) (.press .lower .no) .lower .no false u) ∧
    focused (pressed (owned SA x) .no) .lower x ∧ ¬ keyAnswers x .no false :=
  ⟨⟨_, makes_pressed _ .no (by decide +kernel) (by decide +kernel)⟩,
    focused_owned SA .no _ (by decide +kernel) (by decide +kernel) rfl (by decide), by
      rintro ⟨⟨n, h, h'⟩, _⟩; cases h; revert h'; decide⟩

theorem wit_KeysAnswer :
    let x := prompt 47 .action (.granted .awaiting)
    let y := prompt 47 .safety (.granted .awaiting)
    focused (pressed (owned SA x) .yes) .lower x ∧ focused (pressed (owned SA y) .yes) .lower y ∧ keyAnswers x .yes false ∧
    keyAnswers y .yes false ∧ keysAccepted (pressed (owned SA x) .yes) ∧ ((owned SA x).schedule .lower).owner = some 47 ∧
    ((owned SA x).schedule .lower).replay = none ∧ (SA.records .lower).session.mode ≠ .off ∧ SA.spe.channel ≠ .silenced :=
  ⟨focused_owned SA .yes _ (by decide +kernel) (by decide +kernel) rfl (by decide),
    focused_owned SA .yes _ (by decide +kernel) (by decide +kernel) rfl (by decide),
    ⟨⟨3, rfl, by decide⟩, by decide⟩, ⟨⟨3, rfl, by decide⟩, by decide⟩, by unfold keysAccepted; decide +kernel, by decide +kernel,
    by decide +kernel, by decide +kernel, by decide +kernel⟩

/-- HELP with no replay, with one not yet granted, with one that plays, and with one cut short (log 19). -/
theorem wit_KeysAnswer_help :
    let s := pressed (owned SA (prompt 47 .action (.granted .awaiting))) .help
    let r := fun b => s.onSchedule .lower fun y => { y with replay := some ⟨47, b, false⟩ }
    let u : State := { r true with sch := { (r true).sch with turn := some (.prompt 47 .replay) } }
    keysAccepted s ∧ (s.schedule .lower).owner = some 47 ∧ (s.records .lower).session.mode ≠ .off ∧ s.spe.channel ≠ .silenced ∧
    (s.schedule .lower).replay = none ∧ ((r false).schedule .lower).replay = some ⟨47, false, false⟩ ∧
    (u.schedule .lower).replay = some ⟨47, true, false⟩ ∧ u.sch.turn = some (.prompt 47 .replay) ∧
    (r true).sch.turn ≠ some (.prompt 47 .replay) := by unfold keysAccepted; decide +kernel

theorem wit_KeysAnswer_help_made :
    let s := pressed (owned SA (prompt 47 .action (.granted .awaiting))) .help
    ∃ u, makesKeyEvent s (.press .lower .help) .lower .help false u :=
  ⟨_, makes_pressed _ .help (by decide +kernel) (by decide +kernel)⟩

theorem wit_KnobFollowed :
    let k := fun (s : State) (x : Knob) => s.onKnob .lower fun _ => x
    State.reset.ksc.scanning = false ∧ (k SA ⟨false, false, none, true⟩).ksc.scanning = true ∧
    ((k SA ⟨false, false, none, true⟩).ksc.sides.get .lower).knob.seeking = true ∧
    (SA.ksc.sides.get .lower).knob = ⟨false, false, none, false⟩ ∧
    makesDetent (k SA ⟨false, true, some .a, false⟩) (.knobPhaseChange .lower false false) .lower .cw
      ((k SA ⟨false, true, some .a, false⟩).onKnob .lower fun x => { x with p := false, q := false }) ∧
    makesDetent (k SA ⟨true, false, some .c, false⟩) (.knobPhaseChange .lower false false) .lower .ccw
      ((k SA ⟨true, false, some .c, false⟩).onKnob .lower fun x => { x with p := false, q := false }) ∧
    (∀ kd u, ¬ makesDetent SA (.knobPhaseChange .lower true false) .lower kd u) := by
  refine ⟨by decide +kernel, by decide +kernel, by decide +kernel, by decide +kernel,
    ⟨rfl, by decide +kernel, by decide +kernel, .inl (by decide +kernel), rfl⟩,
    ⟨rfl, by decide +kernel, by decide +kernel, .inr (by decide +kernel), rfl⟩, ?_⟩
  rintro kd u ⟨h, _⟩
  cases h

theorem wit_PanelAndToneTimers :
    ({ S0 with dsp := S0.dimPanel.dsp } : State).dsp.power = .dim ∧ SA.dsp.power = .on ∧ S0.dsp.power = .off ∧
    (SA.records .lower).session.active = true ∧ S0.tgn.current = none ∧ (S0.requestTone 14 .lower .click).tgn.current.isSome = true ∧
    ({ S0 with dsp := { S0.dsp with lampTest := true } } : State).dsp.lampTest = true ∧ S0.dsp.lampTest = false ∧ S0.dsp.blank = false ∧
    ({ S0 with dsp := { S0.dsp with blank := true } } : State).dsp.blank = true := by decide +kernel

theorem wit_TonesAndIndicators : Origin.click = .click ∧ Origin.prompt .safety = .prompt .safety ∧ 15 < 16 ∧ 31 ≤ 31 ∧ 0 ≤ 30 ∧ 30 ≤ 30 := by decide

/-- A block in play, alone and under a tone whose first note is a rest; an element between blocks. -/
theorem wit_TonesAndIndicators_output :
    let s := speakingOf [fresh 0 .action] .first (some (inPlay (.block 0)))
    let u : State := { s with tgn := { s.tgn with current := some ⟨[⟨0, 5⟩], .click, .lower, 31, 5⟩ } }
    let v := speakingOf [fresh 0 .action] .first (some (inPlay (.ready 0)))
    s.spe.channel = .speaking ∧ s.spe.element = some (inPlay (.block 0)) ∧ (inPlay (.block 0)).at_ = .block 0 ∧ s.tgn.current = none ∧
    s.speechAttenuation = some 14 ∧ s.muteDriven = false ∧ u.tgn.current = some ⟨[⟨0, 5⟩], .click, .lower, 31, 5⟩ ∧
    u.speechAttenuation = some 20 ∧ u.muteDriven = false ∧ v.speechAttenuation = none ∧ v.muteDriven = true := by decide +kernel

theorem wit_SpeechGoesOn :
    let e : ElementInPlay := ⟨[⟨5, some ⟨5, 0, 3, 2, true⟩⟩], [⟨5, some ⟨5, 0, 3, 2, true⟩⟩], .block 0, 14, 0, 0, []⟩
    let s := fun x => ({ S0 with sch := { S0.sch with turn := some (.prompt 0 .first) }, spe := { S0.spe with channel := .speaking, element := some x } } : State)
    (s e).spe.channel = .speaking ∧ (s e).spe.element = some e ∧ (s { e with at_ := .pause 16 }).spe.element = some { e with at_ := .pause 16 } ∧
    S0.spe.element = none := by decide +kernel

theorem wit_SpeechGoesOn_pause :
    let e : ElementInPlay := ⟨[], [], .pause 1, 14, 0, 0, []⟩
    let s := { owned SA { prompt 0 .action (.granted .presenting) with span := [.pause 100, .pause 100], elemIndex := 0 } with
      sch := { (owned SA (prompt 0 .action (.granted .presenting))).sch with turn := some (.prompt 0 .first) }
      spe := { SA.spe with channel := .speaking, element := some e } }
    s.sch.safetyCut = false ∧ s.speechStep = none := by decide +kernel

/-- A block ends: the last, one that is followed, and one that a SAFETY candidate cuts; a piece of a pause: the last, one that is followed,
and one that is cut. -/
theorem wit_SpeechGoesOn_ends :
    let s := fun e => speakingOf [fresh 0 .action] .first (some e)
    let c := fun e => { s e with sch := { (s e).sch with safetyCut := true } }
    (s (inPlay (.block 1))).spe.element = some (inPlay (.block 1)) ∧ phrase5.blocks ≤ 1 + 1 ∧ 0 + 1 < phrase5.blocks ∧
    (s (inPlay (.block 0))).sch.safetyCut = false ∧ (c (inPlay (.block 1))).sch.safetyCut = true ∧
    (c (inPlay (.pause 16))).spe.element = some (inPlay (.pause 16)) ∧ (s (inPlay (.pause 15))).spe.element = some (inPlay (.pause 15)) ∧
    (s (inPlay (.block 0))).spe.channel = .speaking := by decide +kernel

/-- What R40 and R41 count as delivered: in mode OFF, with the channel SILENCED, on an ASLEEP side; a repeat that has started, in a HELD
prompt too, and one that is due. -/
theorem wit_SpeechGoesOn_relieved :
    let x := fresh 0 .info
    let off := (owned SA x).onSession .lower fun y => { y with mode := .off }
    let m : State := { owned SA x with spe := { SA.spe with channel := .silenced } }
    off.owesInVain = true ∧ off.speaks 0 = false ∧ m.speaks 0 = false ∧ (off.records .lower).session.mode = .off ∧
    m.spe.channel = .silenced ∧ owesTurn off x .first ∧ owesTurn (owned S0 x) x .first ∧ (S0.records .lower).session.active = false ∧
    (speakingOf [x] .first none).speaks 0 = true ∧
    { prompt 0 .action (.held .awaiting) with repeatStarted := true }.repeatStarted = true ∧
    { prompt 0 .action (.granted .awaiting) with repeatDue := true }.repeatDue = true := by unfold owesTurn; decide +kernel

/-- A turn of a SAFETY prompt, for which no preemption is ever noted. -/
theorem noted_safety (e : Option ElementInPlay) :
    preemptionNoted (speakingOf [fresh 0 .safety] .first e) (fresh 0 .safety) := ⟨.inl rfl, .inl rfl⟩

theorem speaking_safety (e : Option ElementInPlay) :
    speakingPrompt (speakingOf [fresh 0 .safety] .first e) (fresh 0 .safety) .first :=
  ⟨rfl, rfl, by simp [State.prompt, speakingOf, State.setPrompts, State.onSchedule], by
    simp [State.owesInVain, State.speaks, speakingOf, State.setPrompts, State.onSchedule, fresh, prompt]⟩

/-- A SAFETY candidate stands beside an ACTION turn. -/
theorem wit_SpeechGoesOn_safety :
    let y := { fresh 1 .safety with page := none }
    let s := speakingOf [fresh 0 .action, y] .first none
    speakingPrompt s (fresh 0 .action) .first ∧ slotsDistinct s ∧ (fresh 0 .action).cls ≠ .safety ∧ s.sch.safetyCut = false ∧ safetyWaits s :=
  ⟨by unfold speakingPrompt; decide +kernel, by unfold slotsDistinct; decide +kernel, by decide, by decide +kernel,
    .inr ⟨{ fresh 1 .safety with page := none }, .first, ⟨List.mem_cons_of_mem _ (List.mem_cons_self ..), fun _ h => (by cases h),
      fun _ h => (by cases h), .inl rfl, by decide +kernel, rfl, by decide⟩, rfl⟩⟩

/-- A FAULT candidate stands beside an ACTION turn, not yet noted and noted. -/
theorem wit_SpeechGoesOn_higher :
    let y := { fresh 1 .fault with page := none }
    let s := speakingOf [fresh 0 .action, y] .first (some (inPlay .word))
    let u := { s with sch := { s.sch with preempt := true } }
    speakingPrompt s (fresh 0 .action) .first ∧ ¬ safetyWaits s ∧ s.sch.preempt = false ∧ higherWaits s (fresh 0 .action) ∧
    speakingPrompt u (fresh 0 .action) .first ∧ preemptionNoted u (fresh 0 .action) ∧ u.sch.ending = none ∧
    higherWaits u (fresh 0 .action) := by
  have hc : ∀ s : State, s.ptb.prompts = [fresh 0 .action, { fresh 1 .fault with page := none }] → s.stu.audition = none →
      ¬ safetyWaits s := by
    rintro s hs ha (h | ⟨c, k, h, h'⟩)
    · exact h.1 ha
    · have h := h.1
      rw [hs] at h
      rcases List.mem_cons.1 h with rfl | h
      · cases h'
      · rcases List.mem_cons.1 h with rfl | h
        · cases h'
        · cases h
  have hf : ∀ s : State, s.ptb.prompts = [fresh 0 .action, { fresh 1 .fault with page := none }] →
      s.sch.turn = some (.prompt 0 .first) → s.scu = SA.scu → higherWaits s (fresh 0 .action) := by
    intro s hs ht hu
    refine ⟨{ fresh 1 .fault with page := none }, .first, ⟨by rw [hs]; exact List.mem_cons_of_mem _ (List.mem_cons_self ..), fun _ h => ?_,
      fun h e => ?_, .inl rfl, ?_, rfl, by decide⟩, by decide⟩
    · rw [ht] at h; cases h
    · unfold State.records at e; rw [hu] at e; cases e
    · unfold State.records; rw [hu]; decide +kernel
  exact ⟨by unfold speakingPrompt; decide +kernel, hc _ rfl rfl, rfl, hf _ rfl rfl rfl, by unfold speakingPrompt; decide +kernel,
    ⟨.inr (.inr (hc _ rfl rfl)), .inr (.inr (.inl rfl))⟩, rfl, hf _ rfl rfl rfl⟩

/-- Small steps that stop and go on; a turn whose element ends with the loss of its region, with its span counted as delivered, in a repeat,
and two faults counted before. -/
theorem wit_SpeechGoesOn_endings :
    let x := { prompt 0 .safety (.granted .awaiting) with repeatStarted := true }
    let s := fun e n => { speakingOf [x] .again (some { inPlay .word with rest := [] }) with
      sch := { (speakingOf [x] .again none).sch with ending := e }
      spe := { (speakingOf [x] .again (some { inPlay .word with rest := [] })).spe with faults := n } }
    S0.speechStep = none ∧ (owned SA (fresh 0 .confirm)).speechStep.isSome = true ∧
    speakingPrompt (s (some .lost) 0) x .again ∧ (s (some .lost) 0).sch.ending = some .lost ∧
    speakingPrompt (s (some .delivered) 2) x .again ∧ (s (some .delivered) 2).sch.ending = some .delivered ∧
    2 ≤ (s none 2).spe.faults ∧ (s none 2).stu.flag = false ∧ slotsDistinct (s none 2) := by
  unfold speakingPrompt slotsDistinct; decide +kernel

/-- A HELP replay's turn at its element's end: lost, delivered with the further mark set and clear, and of an empty span; and in IDLE, the
grant of a preemption. -/
theorem wit_SpeechGoesOn_replay :
    let x := { prompt 0 .safety (.granted .awaiting) with repeatTimer := none }
    let s := fun (y : Prompt) e f n => ({ speakingOf [y] .replay (some { inPlay .word with rest := [] }) with
      sch := { ((speakingOf [y] .replay none).onSchedule .lower fun z => { z with replay := some ⟨0, true, f⟩ }).sch with ending := e }
      spe := { (speakingOf [y] .replay (some { inPlay .word with rest := [] })).spe with faults := n } } : State)
    let u := { s { x with span := [], elemIndex := 0 } none false 0 with
      spe := { (s x none false 0).spe with element := none } }
    speakingPrompt (s x (some .lost) false 0) x .replay ∧ (s x (some .lost) false 0).sch.ending = some .lost ∧
    speakingPrompt (s x (some .delivered) true 0) x .replay ∧ slotsDistinct (s x (some .delivered) true 2) ∧
    speakingPrompt (s x none false 2) x .replay ∧
    speakingPrompt u { x with span := [], elemIndex := 0 } .replay ∧ u.spe.element = none ∧ u.sch.safetyCut = false ∧
    SA.spe.channel = .idle ∧ SA.owesInVain = false := by
  unfold speakingPrompt slotsDistinct; decide +kernel

/-- A delivered replay with the further mark is owed once more, one without is over; a lost one lets the repeat timer start again. -/
theorem test_replay_ends :
    let x := { prompt 0 .safety (.granted .awaiting) with repeatTimer := none }
    let s := fun f => (speakingOf [x] .replay none).onSchedule .lower fun z => { z with replay := some ⟨0, true, f⟩ }
    ((spanOver (s true) x .replay).schedule .lower).replay = some ⟨0, false, false⟩ ∧
    ((spanOver (s false) x .replay).schedule .lower).replay = none ∧
    ((replayLeft (s true) x .replay).prompt 0).map (·.repeatTimer) = some (some 1000) := by decide +kernel

/-- The places of an element in a turn: none yet, words left, a block to begin with its page not pinned, pinned and not fetched, fetched
and clean, fetched and faulted. -/
theorem wit_SpeechGoesOn_places :
    let s := fun e => speakingOf [fresh 0 .safety] .first (some e)
    let p := fun (e : ElementInPlay) (l : List PageCopy) => { s e with spe := { (s e).spe with pin := some 3, prefetch := l } }
    let zero : List Byte := List.replicate 64 0
    let bad : List Byte := 0 :: 0 :: 64 :: List.replicate 61 0
    (fresh 0 .safety).span[(fresh 0 .safety).elemIndex]? = some (.phrase 5) ∧ (inPlay .word).rest = [⟨5, some phrase5⟩] ∧
    (3 : Nat) = (phrase5.first + (0 + 1) / 8) % 512 ∧ (s (inPlay (.ready 0))).spe.pin ≠ some 3 ∧
    (s (inPlay (.ready 0))).hasPending 3 = false ∧
    (working (s (inPlay (.ready 0))) 0x30 (.write 3 0 [1])).hasPending 3 = true ∧
    fetchedSlot (p (inPlay (.ready 0)) []).spe.prefetch 3 1 = none ∧
    fetchedSlot (p (inPlay (.ready 0)) [⟨3, phrase5, [(1, zero)], false⟩]).spe.prefetch 3 1 = some zero ∧ ¬ faulted zero ∧ faulted bad ∧
    (s (inPlay .word)).stu.flag = false ∧ (s (inPlay .word)).spe.faults < 2 ∧ (fresh 0 .safety).span.length ≤ (fresh 0 .safety).elemIndex + 1 ∧
    (fresh 0 .safety).state = .granted .presenting ∧ (s { inPlay .word with rest := [] }).sch.ending = none := by
  unfold faulted; decide +kernel

/-- An audition's turn: no element yet, the phrase missing, of no block, its block to begin, fetched or not, in play, and its end; and the
codes of every move of the step index (R128). -/
theorem wit_SpeechGoesOn_audition :
    let e := fun (r : Option Resolution) (x : Playing) => (⟨[⟨5, r⟩], [⟨5, r⟩], x, 14, 0, 0, []⟩ : ElementInPlay)
    let p := fun (l : List PageCopy) => ({ auditioning (some (inPlay (.ready 0))) with
      spe := { (auditioning (some (inPlay (.ready 0)))).spe with pin := some 3, prefetch := l } } : State)
    let bad : List Byte := 0 :: 0 :: 64 :: List.replicate 61 0
    auditionSpeaks (auditioning none) ⟨5, 0⟩ ∧ (auditioning none).spe.element = none ∧
    auditionSpeaks (auditioning (some (e none .word))) ⟨5, 0⟩ ∧ (e none .word).rest = [⟨5, none⟩] ∧
    (e (some { phrase5 with blocks := 0 }) .word).rest = [⟨5, some { phrase5 with blocks := 0 }⟩] ∧
    (auditioning (some (inPlay (.ready 0)))).spe.pin ≠ some 3 ∧ (auditioning (some (inPlay (.ready 0)))).hasPending 3 = false ∧
    fetchedSlot (p []).spe.prefetch 3 1 = none ∧ fetchedSlot (p [⟨3, phrase5, [(1, bad)], false⟩]).spe.prefetch 3 1 = some bad ∧ faulted bad ∧
    auditionSpeaks (auditioning (some { inPlay .word with rest := [] })) ⟨5, 0⟩ ∧
    (2 : Nat) % 8 ≤ 2 ∧ 12 % 8 = 4 ∧ 13 % 8 = 5 ∧ 14 % 8 = 6 ∧ 15 % 8 = 7 := by unfold auditionSpeaks faulted; decide +kernel

theorem wit_invariants :
    storeCanonical S0 ∧ attnFollows S0 ∧ queuesBounded S0 ∧ rolesBoundOnce S0 ∧ placesBounded S0 ∧ tableConsistent S0 ∧
    speechConsistent S0 ∧ panelConsistent S0 ∧ (∃ t, step S0 = .next t) := by
  refine ⟨by unfold storeCanonical; decide +kernel, ?_, ?_, ?_, ?_, by unfold tableConsistent slotsDistinct; decide +kernel,
    by unfold speechConsistent; decide +kernel, by unfold panelConsistent; decide +kernel, ⟨_, rfl⟩⟩
  · intro p; cases p <;> decide +kernel
  · intro p; cases p <;> decide +kernel
  · intro p p' r h h'; cases p <;> cases p' <;> first | rfl | (cases h; cases h')
  · exact ⟨fun p => by cases p <;> decide +kernel, fun p c q f h => by cases p <;> cases h⟩

theorem wit_invariants_places : placesBounded (working S0 4 (.response ⟨0x84, 9, .ok, [], true⟩)) :=
  ⟨fun p => by cases p <;> decide +kernel, fun p c q f h => by cases p <;> cases h; rfl⟩

theorem wit_invariants_sides :
    cyclesConsistent S0 ∧ sidesConsistent S0 ∧ unboundHoldNothing S0 ∧ regionsOwned S0 ∧ WritesGuarded S0 := by
  refine ⟨?_, ?_, ?_, ⟨by unfold slotsDistinct; decide +kernel, ?_⟩, ⟨by decide +kernel, ?_, ?_, ?_, ?_, ?_⟩⟩
  · intro sd; cases sd <;> decide +kernel
  · intro sd; cases sd <;> decide +kernel
  · intro p h; cases p <;> cases h
  · intro sd n h; cases sd <;> cases h
  · intro p c q pg o d h; cases p <;> cases h
  · intro p c q pg o d h; cases p <;> cases h
  · intro p w h; cases p <;> cases h
  · intro p pg o d h; cases h
  · intro p pg o d h; cases h

/-- A pinned page beside a write under way to another one: the guard holds where it has something to guard. -/
theorem wit_StepKeepsPinnedPages :
    let s := moving (working { S0 with spe := { S0.spe with pin := some 3 } } 0x30 (.write 4 511 [1])) (.write .d 4 511 [1])
    s.spe.pin = some 3 ∧ WritesGuarded s ∧ (∃ t, step { s with pending := [.transferEnd] } = .next t) := by
  refine ⟨by decide +kernel, ⟨by decide +kernel, ?_, ?_, ?_, ?_, ?_⟩, ⟨_, rfl⟩⟩
  · intro p c q pg o d h; cases p <;> cases h; exact ⟨by decide, by decide⟩
  · intro p c q pg o d h; cases p <;> cases h
  · intro p w h; cases p <;> cases h
  · intro p pg o d h; cases h; exact ⟨0x30, 9, rfl⟩
  · intro p pg o d h; cases h

end Sys2Proof.Tests
end

section
/-! The state after a power-on reset, read record by record, and the invariants there (O4). -/

namespace Sys2Proof.Machine

open Sys2Proof.Claims

/-! ### The records -/

theorem reset_link (p : Port) : State.reset.link p = .reset := by cases p <;> rfl
theorem reset_queue (p : Port) : State.reset.nq.get p = .reset := by cases p <;> rfl
theorem reset_portStore (p : Port) : State.reset.portStore p = .reset := by cases p <;> rfl
theorem reset_records (sd : Side) : State.reset.records sd = .reset := by cases sd <;> rfl
theorem reset_schedule (sd : Side) : State.reset.schedule sd = .reset := by cases sd <;> rfl
theorem reset_region (sd : Side) : State.reset.region sd = .reset := by cases sd <;> rfl

/-- The built-in tone patterns are numbers 14 and 15 (R138). -/
theorem reset_pattern (n : Nat) :
    State.reset.pattern n = if n = 14 then [⟨121, 2⟩] else if n = 15 then [⟨15, 8⟩, ⟨0, 4⟩, ⟨15, 8⟩] else [] := by
  show (if 14 = n then _ else if 15 = n then _ else _) = _
  simp only [eq_comm]
  rfl

/-- Every glyph of the font is dark (R148). -/
theorem reset_glyphRow (code : Byte) (r : Nat) : State.reset.glyphRow false code r = 0 :=
  ite_self (0 : Byte)

/-! ### The invariants -/

theorem reset_storeCanonical : storeCanonical State.reset := ⟨rfl, rfl, rfl, rfl⟩

theorem reset_attnFollows : attnFollows State.reset := fun p => by rw [reset_queue]; rfl

theorem reset_queuesBounded : queuesBounded State.reset := fun p => by
  unfold noticesOf
  rw [reset_queue]
  exact ⟨Nat.zero_le _, fun h => nomatch h⟩

theorem reset_rolesBoundOnce : rolesBoundOnce State.reset := fun p p' r h _ => by
  rw [reset_link] at h
  cases h

theorem reset_placesBounded : placesBounded State.reset := by
  refine ⟨fun p => ?_, fun p c q f h => ?_⟩
  · rw [reset_link]
    exact ⟨Nat.zero_le _, Nat.zero_le _⟩
  · rw [reset_link] at h
    cases h

theorem reset_unboundHoldNothing : unboundHoldNothing State.reset := fun p _ => by
  refine ⟨by unfold noticesOf; rw [reset_queue]; rfl, fun x h => absurd h List.not_mem_nil, fun sd h => ?_⟩
  rw [reset_records] at h
  cases h

theorem reset_cyclesConsistent : cyclesConsistent State.reset := fun sd => by
  rw [reset_records]
  decide

theorem reset_tableConsistent : tableConsistent State.reset := ⟨List.nodup_nil, fun _ h => absurd h List.not_mem_nil, List.nodup_nil⟩

theorem reset_speechConsistent : speechConsistent State.reset := by
  unfold speechConsistent
  decide

theorem reset_panelConsistent : panelConsistent State.reset := by
  unfold panelConsistent
  decide

theorem reset_sidesConsistent : sidesConsistent State.reset := fun sd => by
  rw [reset_records]
  decide

theorem reset_regionsOwned : regionsOwned State.reset := by
  refine ⟨List.nodup_nil, fun sd n h => ?_⟩
  rw [reset_schedule] at h
  cases h

theorem reset_writesGuarded : WritesGuarded State.reset where
  canonical := rfl
  direct p _ _ _ _ _ h := by rw [reset_link] at h; cases h
  held p _ _ _ _ _ h := by rw [reset_link] at h; cases h
  posted p _ h := by rw [reset_portStore] at h; cases h
  directTransfer _ _ _ _ h := nomatch h
  postedTransfer _ _ _ _ h := nomatch h

/-- Settles O4: the records as they stand after a power-on reset, then each invariant there. -/
theorem resetState : Obligations.ResetState := by
  refine ⟨fun p => ?_, rfl, rfl, fun sd => ?_, rfl, rfl, rfl, rfl, rfl, rfl, rfl, reset_pattern, reset_glyphRow, rfl,
    fun _ _ => rfl, fun _ _ => rfl, rfl, rfl, rfl, rfl, rfl, rfl, rfl, rfl, rfl, rfl,
    reset_storeCanonical, reset_attnFollows, reset_queuesBounded, reset_rolesBoundOnce, reset_placesBounded,
    reset_unboundHoldNothing, reset_cyclesConsistent, reset_tableConsistent, reset_speechConsistent, reset_panelConsistent,
    reset_sidesConsistent, reset_regionsOwned, reset_writesGuarded⟩
  · unfold noticesOf
    rw [reset_link, reset_queue, reset_portStore]
    exact ⟨rfl, rfl, rfl, rfl, rfl, rfl, rfl, rfl, rfl, rfl⟩
  · rw [reset_records, reset_schedule, reset_region]
    exact ⟨rfl, rfl, rfl, rfl, rfl⟩

end Sys2Proof.Machine
end

section
/-! What requests, notices and renders leave, in the words of the statements: a request that is taken and answered at once, offers made
before or after another record changes, and the content that a region shows. -/

namespace Sys2Proof.Machine

open Sys2Proof.Claims

/-! ### Requests answered at once (R157 to R162) -/

/-- The receiver in HUNT and the response placed are the whole answer. -/
theorem answered_eq (s : State) (p : Port) (code seq : Byte) (st : Status) (body : List Byte) :
    answered s p code seq st body = repliedWork (receiving s p .hunt) p code seq st body := by
  unfold answered repliedWork receiving
  rw [PerPort.update_update]
  rfl

/-- A request that is taken, and that its block answers without touching the links, leaves what the block left with the response placed. -/
theorem requestArrives_ready {s u : State} {p : Port} {r : Request} {st : Status} {body : List Byte} (q : Byte)
    (h : ready s p (requestCode r)) (hs : wellSized r = true)
    (hc : (receiving s p .hunt).carryOut p r = (.answer st body, u)) (hl : u.lnk = (receiving s p .hunt).lnk) :
    s.requestArrives p q r = repliedWork u p (requestCode r) q st body := by
  obtain ⟨hi, hw, hk, hcode⟩ := h
  rw [receiving_eq] at hc hl
  refine State.requestArrives_answer q hi hw hk hcode hs hc ?_
  unfold State.link
  rw [hl]
  exact State.keptTaken_receiver s p p .hunt

/-- A request that is taken, and that its block answers without changing anything. -/
theorem requestArrives_unchanged {s : State} {p : Port} {r : Request} {st : Status} {body : List Byte} (q : Byte)
    (h : ready s p (requestCode r)) (hs : wellSized r = true)
    (hc : (receiving s p .hunt).carryOut p r = (.answer st body, receiving s p .hunt)) :
    s.requestArrives p q r = answered s p (requestCode r) q st body := by
  rw [requestArrives_ready q h hs hc rfl, answered_eq]

/-- A side request within the sender's sides passes the side checks (R55). -/
theorem withSide_reached {s : State} {p : Port} {b : Byte} {sd : Side} (hb : sideOf b = some sd)
    (hr : roleReachesSide (s.link p).role sd = true) (f : Side → Reply × State) : (receiving s p .hunt).withSide p b f = f sd := by
  have hr' : roleReachesSide ((receiving s p .hunt).link p).role sd = true := by rwa [receiving_eq, State.role_receiver]
  unfold State.withSide State.checkSide
  simp only [hb, hr', if_true]

/-- An answer moves no role. -/
theorem role_repliedWork (s : State) (p q : Port) (code seq : Byte) (st : Status) (body : List Byte) :
    ((repliedWork s p code seq st body).link q).role = (s.link q).role := s.role_onLink p q _ fun _ => rfl

/-- An answer takes no write into work, so no page gains a pending write by it (R112). -/
theorem hasPending_repliedWork {s : State} {page : Nat} (h : s.hasPending page = false) (p : Port) (code seq : Byte) (st : Status)
    (body : List Byte) : (repliedWork s p code seq st body).hasPending page = false := by
  unfold State.hasPending at *
  simp only [List.any_eq_false, Bool.or_eq_true, not_or] at *
  intro q hq
  refine ⟨?_, (h q hq).2⟩
  have hl : (repliedWork s p code seq st body).link q = if q = p then _ else s.link q := State.link_onLink_eq s p q _
  rw [hl]
  split
  · exact Bool.false_ne_true
  · exact (h q hq).1

/-- What is presentation before an answer is so after it. -/
theorem Presents.repliedWork {u v : State} (h : Presents u v) (p : Port) (code seq : Byte) (st : Status) (body : List Byte) :
    Presents (repliedWork u p code seq st body) (repliedWork v p code seq st body) :=
  { h with
    lnk := by
      unfold Claims.repliedWork
      rw [h.lnk]
    queues := fun q => by
      obtain ⟨ns, e, hn⟩ := h.queues q
      exact ⟨ns, e, fun hr => hn (by rwa [role_repliedWork] at hr)⟩
    pin := fun page hp => (h.pin page hp).imp_right fun hn => hasPending_repliedWork hn p code seq st body }

/-! ### Notices offered beside other changes (R167) -/

/-- An offer looks at the links and the queues alone, so another change may be made before or after it. -/
theorem offer_comm {g : State → State} (hl : ∀ s, (g s).lnk = s.lnk) (hq : ∀ s p f, (g s).onQueue p f = g (s.onQueue p f)) (s : State)
    (p : Port) (n : Notice) : (g s).offer p n = g (s.offer p n) := by
  have e : ((g s).link p).role = (s.link p).role := by unfold State.link; rw [hl]
  unfold State.offer
  rw [e, hq]
  split <;> rfl

theorem offerEach_comm {g : State → State} (hl : ∀ s, (g s).lnk = s.lnk) (hq : ∀ s p f, (g s).onQueue p f = g (s.onQueue p f))
    (n : Notice) : ∀ (ps : List Port) (s : State), (g s).offerEach ps n = g (s.offerEach ps n)
  | [], _ => rfl
  | p :: ps, s => by
    show ((g s).offer p n).offerEach ps n = g ((s.offer p n).offerEach ps n)
    rw [offer_comm hl hq, offerEach_comm hl hq n ps]

/-- An offer to the ROOM port looks at the links and the queues alone. -/
theorem offerRoom_comm {g : State → State} (hl : ∀ s, (g s).lnk = s.lnk) (hq : ∀ s p f, (g s).onQueue p f = g (s.onQueue p f))
    (s : State) (n : Notice) : (g s).offerRoom n = g (s.offerRoom n) := by
  unfold State.offerRoom
  rw [State.portOf_congr (s := s) (t := g s) fun p => by unfold State.link; rw [hl]]
  cases s.portOf .room with
  | none => rfl
  | some p => exact offer_comm hl hq s p n

/-- The masked offers of a state whose cycle record changed are those of the state before. -/
theorem offerMasked_onCycle (s : State) (sd : Side) (f : Cycle → Cycle) (n : Notice) :
    (s.onCycle sd f).offerMasked n = (s.offerMasked n).onCycle sd f :=
  offerEach_comm (g := fun s => s.onCycle sd f) (fun _ => rfl) (fun _ _ _ => rfl) n _ s

/-! ### What a region shows (R142 to R147) -/

/-- A region told its content: content and masks follow at once (R142). -/
def regionTold (c : Content) (r : Region) : Region :=
  { r with
    content := c
    icons := match c with | .prompt _ g => g.icons | .empty | .fallback => 0
    blink := match c with | .prompt _ g => g.blink | .empty | .fallback => 0 }

/-- Abandoning a read for a render touches the store's transfer alone. -/
theorem readDropped_frame (s : State) (sd : Side) : readDropped s sd = { s with psc := (readDropped s sd).psc } := by
  unfold readDropped
  split
  · split <;> rfl
  · rfl

/-- A region told its content is that region with its render begun (R143). -/
theorem showContent_eq (s : State) (sd : Side) (c : Content) : s.showContent sd c =
    (readDropped (s.onRegion sd (regionTold c)) sd).onRegion sd fun _ => regionRendered (s.onRegion sd (regionTold c)) sd :=
  (renderBegun_eq _ sd).symm

/-- Showing a content touches the regions and the store's transfer alone. -/
theorem showContent_frame (s : State) (sd : Side) (c : Content) :
    s.showContent sd c = { s with psc := (s.showContent sd c).psc, dsp := (s.showContent sd c).dsp } := by
  rw [showContent_eq, readDropped_frame]
  rfl

theorem region_showContent (s : State) (sd : Side) (c : Content) :
    (s.showContent sd c).region sd = regionRendered (s.onRegion sd (regionTold c)) sd := by
  rw [showContent_eq, State.region_onRegion]

theorem region_onRegion_other (s : State) (sd : Side) (f : Region → Region) :
    (s.onRegion sd f).region (otherSide sd) = s.region (otherSide sd) := by cases sd <;> rfl

theorem region_showContent_other (s : State) (sd : Side) (c : Content) :
    (s.showContent sd c).region (otherSide sd) = s.region (otherSide sd) := by
  rw [showContent_eq, readDropped_frame, region_onRegion_other]
  exact region_onRegion_other s sd _

/-- A render looks at the configuration, the directory and the sides' records alone. -/
theorem rendered_congr {s t : State} (hc : t.cfg = s.cfg) (hd : t.psc.directory = s.psc.directory) (hr : t.scu = s.scu) (sd : Side)
    (l : Fin 4) (f : List (Nat × TextItem)) (todo : List (Nat × LineElem)) (r : Region) :
    rendered t sd l f todo r = rendered s sd l f todo r := by
  unfold rendered State.records
  rw [State.formElems_congr fun n l => State.resolve_congr hd hc n l, hr]

/-- A region told to show a prompt's page (R142, R143). -/
theorem region_showContent_prompt (s : State) (sd : Side) (slot : Nat) (g : PageRecord) :
    (s.showContent sd (.prompt slot g)).region sd = regionShowing s sd slot g := by
  rw [region_showContent]
  unfold regionRendered
  rw [State.region_onRegion]
  exact rendered_congr (s := s) (t := s.onRegion sd (regionTold (.prompt slot g))) rfl rfl rfl sd _ [] (pageElems g) _

/-- A region told to show the fallback page (R147; logs 11 and 48). -/
theorem region_showContent_fallback (s : State) (sd : Side) : (s.showContent sd .fallback).region sd =
    ⟨.fallback, [], [], fallbackLine, List.replicate 24 0x20, true, 0, 0, none⟩ := by
  rw [region_showContent]
  unfold regionRendered
  rw [State.region_onRegion]
  rfl

/-- A region told to be dark (R142). -/
theorem region_showContent_empty (s : State) (sd : Side) : (s.showContent sd .empty).region sd =
    ⟨.empty, [], [], List.replicate 24 0x20, List.replicate 24 0x20, false, 0, 0, none⟩ := by
  rw [region_showContent]
  unfold regionRendered
  rw [State.region_onRegion]
  rfl

end Sys2Proof.Machine
end

section
/-! The timers of a side's cycle record and drum (O32). -/

namespace Sys2Proof.Machine

open Sys2Proof.Claims

/-! ### The countdown falls (R70, R146) -/

/-- The cycle record after a second of a countdown that was not at 0. -/
theorem Cycle.fallen_eq {c : Cycle} (h : c.countdown ≠ 0) :
    c.fallen = ⟨c.phase, c.countdown - 1, decide (c.countdown ≠ 1), if c.countdown = 1 then none else some 0⟩ := by
  have e : c.countdown - 1 = 0 ↔ c.countdown = 1 := by omega
  unfold Cycle.fallen
  simp only [e, ne_eq]

/-- The region of a side whose countdown changed: the lines that hold a COUNTDOWN element are composed again (R146). -/
def regionCounted (s : State) (sd : Side) (r : Region) : Region :=
  if (s.region sd).showsPrompt = true then
    { r with
      line1 := lineAfter (s.records sd).cycle.countdown r.texts1 r.line1
      line2 := lineAfter (s.records sd).cycle.countdown r.texts2 r.line2 }
  else r

theorem onRegion_self (s : State) (sd : Side) : (s.onRegion sd fun r => r) = s := by cases sd <;> rfl

theorem countdownChanged_eq (s : State) (sd : Side) : s.countdownChanged sd = s.onRegion sd (regionCounted s sd) := by
  unfold State.countdownChanged regionCounted
  split
  · rfl
  · exact (onRegion_self s sd).symm

/-- A second that ends on a RUNNING side: COUNTDOWN_ZERO where the countdown reaches 0, the record fallen, the lines following (R70,
R146). -/
theorem fallCountdown_eq {s : State} {sd : Side} (h : (s.records sd).cycle.countdown ≠ 0) : s.fallCountdown sd =
    ((if (s.records sd).cycle.countdown = 1 then s.offerMasked ⟨.countdownZero, some sd, none, 0, 0, false⟩ else s).onCycle sd
      fun _ => (s.records sd).cycle.fallen).countdownChanged sd := by
  have e : (s.records sd).cycle.fallen.countdown = 0 ↔ (s.records sd).cycle.countdown = 1 := by
    rw [Cycle.fallen_eq h]
    show _ - 1 = 0 ↔ _
    omega
  unfold State.fallCountdown
  simp only [e, offerMasked_onCycle]
  split <;> rfl

/-- A cycle record replaced by a function of what it was. -/
theorem onCycle_congr (s : State) (sd : Side) {f g : Cycle → Cycle} (h : f (s.records sd).cycle = g (s.records sd).cycle) :
    s.onCycle sd f = s.onCycle sd g := by
  unfold State.onCycle
  rw [PerSide.update_congr s.scu sd]
  exact congrArg (fun c => ({ s.records sd with cycle := c } : SideRecords)) h

/-- What a countdown's fall changes: the cycle record, the queues where it reaches 0, and the lines of its region. -/
theorem fallCountdown_falls {s : State} {sd : Side} (h : (s.records sd).cycle.countdown ≠ 0) :
    changesOnly [.notices, .sides, .display] s (s.fallCountdown sd) ∧
    (s.fallCountdown sd).scu = (s.onCycle sd fun c =>
      ⟨c.phase, c.countdown - 1, decide (c.countdown ≠ 1), if c.countdown = 1 then none else some 0⟩).scu ∧
    (s.fallCountdown sd).nq =
      (if (s.records sd).cycle.countdown = 1 then s.offerMasked ⟨.countdownZero, some sd, none, 0, 0, false⟩ else s).nq ∧
    Presents { s with scu := (s.fallCountdown sd).scu, nq := (s.fallCountdown sd).nq } (s.fallCountdown sd) ∧
    linesFollow s (s.fallCountdown sd) sd ((s.records sd).cycle.countdown - 1) ∧
    (s.fallCountdown sd).region (otherSide sd) = s.region (otherSide sd) := by
  rw [fallCountdown_eq h]
  have hv : (if (s.records sd).cycle.countdown = 1 then s.offerMasked ⟨.countdownZero, some sd, none, 0, 0, false⟩ else s) =
      { s with nq := (if (s.records sd).cycle.countdown = 1 then
        s.offerMasked ⟨.countdownZero, some sd, none, 0, 0, false⟩ else s).nq } := by
    split
    · exact State.offerMasked_eq s _
    · rfl
  generalize (if (s.records sd).cycle.countdown = 1 then
    s.offerMasked ⟨.countdownZero, some sd, none, 0, 0, false⟩ else s).nq = q at *
  rw [hv, countdownChanged_eq]
  have hf := onCycle_congr s sd (f := fun _ => (s.records sd).cycle.fallen) (g := fun c =>
    ⟨c.phase, c.countdown - 1, decide (c.countdown ≠ 1), if c.countdown = 1 then none else some 0⟩) (Cycle.fallen_eq h)
  have hscu := congrArg State.scu hf
  refine ⟨?_, hscu, rfl, Presents.onRegion _ sd _, ?_, region_onRegion_other _ sd _⟩
  · intro b hb
    cases b with
    | notices | sides | display => simp at hb
    | overtaken => exact ⟨rfl, rfl⟩
    | _ => rfl
  · unfold linesFollow
    rw [State.region_onRegion]
    have hr : ∀ f, (({ s with nq := q } : State).onCycle sd f).region sd = s.region sd := fun _ => rfl
    have hc : (({ s with nq := q } : State).onCycle sd fun _ => (s.records sd).cycle.fallen).records sd =
      { s.records sd with cycle := (s.records sd).cycle.fallen } := State.records_onCycle _ _ _
    unfold regionCounted
    rw [hr, hc]
    split <;> exact ⟨rfl, rfl⟩

/-! ### The fallback page falls due (R37, R38) -/

/-- What the end of an unbound timer changes: the side's record, and its region where that has no owner. -/
theorem fallbackFalls_shows (s : State) (sd : Side) :
    (s.fallbackFalls sd).schedule sd = { s.schedule sd with unbound := ⟨500, false⟩, fallbackDue := true } ∧
    (s.fallbackFalls sd).schedule (otherSide sd) = s.schedule (otherSide sd) ∧ (s.fallbackFalls sd).nq = s.nq ∧
    (s.fallbackFalls sd).ptb = s.ptb ∧ (s.fallbackFalls sd).spe = s.spe ∧ (s.fallbackFalls sd).tgn = s.tgn ∧
    ((s.schedule sd).owner ≠ none → (s.fallbackFalls sd).dsp = s.dsp) ∧
    ((s.schedule sd).owner = none → (s.fallbackFalls sd).region sd =
      ⟨.fallback, [], [], fallbackLine, List.replicate 24 0x20, true, 0, 0, none⟩) := by
  have hs : ∀ f, (s.onSchedule sd f).schedule sd = f (s.schedule sd) ∧
      (s.onSchedule sd f).schedule (otherSide sd) = s.schedule (otherSide sd) := by intro f; cases sd <;> exact ⟨rfl, rfl⟩
  unfold State.fallbackFalls
  cases ho : (s.schedule sd).owner with
  | none =>
    have hf := region_showContent_fallback
      (s.onSchedule sd fun x => { x with unbound := ⟨Config.unboundTicks, false⟩, fallbackDue := true }) sd
    simp only [Option.isNone_none, if_true]
    rw [showContent_frame] at hf ⊢
    exact ⟨(hs _).1, (hs _).2, rfl, rfl, rfl, rfl, fun h => absurd rfl h, fun _ => hf⟩
  | some n =>
    simp only [Option.isNone_some, Bool.false_eq_true, if_false]
    exact ⟨(hs _).1, (hs _).2, rfl, rfl, rfl, rfl, fun _ => rfl, fun h => nomatch h⟩

theorem exec_countdownFall (s : State) (sd : Side) : exec (.countdownFall sd) s = .next (s.secondOut sd) := rfl

theorem exec_fallbackDue (s : State) (sd : Side) : exec (.fallbackDue sd) s = .next (s.unboundOut sd) := rfl

/-- Settles O32: each timer's end is overtaken, without its subject, or one of the two operations above. -/
theorem sideTimersFall : Obligations.SideTimersFall := by
  intro s sd
  simp only [exec_countdownFall, exec_fallbackDue, State.secondOut, State.unboundOut]
  refine ⟨fun h => ?_, fun h hr => ?_, fun hr hc h => ?_, fun h => ?_, fun h hr => ?_, fun h hr => ?_⟩
  · rw [if_pos h]
  · simp only [h, hr, Bool.false_eq_true, if_false]
  · simp only [h, hr, Bool.false_eq_true, if_false, if_true]
    exact ⟨_, rfl, fallCountdown_falls hc⟩
  · rw [if_pos h]
  · simp only [h, hr, Bool.false_eq_true, if_false]
  · simp only [h, hr, Bool.false_eq_true, if_false, if_true]
    obtain ⟨hs, ho, hq, hp, he, ht, hd, hn⟩ := fallbackFalls_shows s sd
    exact ⟨_, rfl, .fallbackFalls s sd, hs, ho, hq, hp, he, ht, hd, fun h => by rw [hn h]; exact ⟨rfl, rfl, rfl, rfl, rfl⟩⟩

end Sys2Proof.Machine
end

section
/-! What speech going on leaves as it was: the relation SpeechAlone, kept by every small step and so by the whole of a settling. -/

namespace Sys2Proof.Machine

open Sys2Proof.Claims

/-! ### The relation -/

/-- A prompt as it was posted, and whether it is queued, granted or held. -/
def Prompt.seated (p : Prompt) : Prompt :=
  { p.posted with state := match p.state with
    | .queued => .queued
    | .granted _ => .granted .presenting
    | .held _ => .held .presenting }

/-- No prompt of a side holds the channel, slots being distinct (R12). -/
def speaksElsewhere (s : State) (sd : Side) : Prop :=
  slotsDistinct s ∧ ∀ n k, s.sch.turn = some (.prompt n k) → ∀ x ∈ s.ptb.prompts, x.slot = n → x.side ≠ sd

/-- `t` comes from `s` by speech going on: regions, tones, timers of sides and the grants of prompts stay, no replay is recorded, the channel
does not fall silent, and a side whose speech mode is OFF gets no turn. -/
structure SpeechAlone (s t : State) : Prop where
  scu : t.scu = s.scu
  dsp : t.dsp = s.dsp
  tgn : t.tgn = s.tgn
  sides : ∀ sd, { t.schedule sd with replay := none } = { s.schedule sd with replay := none }
  replays : ∀ sd, (s.schedule sd).replay = none → (t.schedule sd).replay = none
  silent : t.spe.channel = .silenced → s.spe.channel = .silenced
  prompts : t.ptb.prompts.map Prompt.seated = s.ptb.prompts.map Prompt.seated
  quiet : ∀ sd, (s.records sd).session.mode = .off → speaksElsewhere s sd → speaksElsewhere t sd

theorem SpeechAlone.refl (s : State) : SpeechAlone s s :=
  ⟨rfl, rfl, rfl, fun _ => rfl, fun _ h => h, id, rfl, fun _ _ h => h⟩

theorem SpeechAlone.trans {s t u : State} (h : SpeechAlone s t) (k : SpeechAlone t u) : SpeechAlone s u where
  scu := k.scu.trans h.scu
  dsp := k.dsp.trans h.dsp
  tgn := k.tgn.trans h.tgn
  sides sd := (k.sides sd).trans (h.sides sd)
  replays sd hr := k.replays sd (h.replays sd hr)
  silent hs := h.silent (k.silent hs)
  prompts := k.prompts.trans h.prompts
  quiet sd hm hq := k.quiet sd (by unfold State.records; rw [h.scu]; exact hm) (h.quiet sd hm hq)

/-- Prompts seated alike have the same slots. -/
theorem slots_of_seated {l l' : List Prompt} (h : l'.map Prompt.seated = l.map Prompt.seated) : l'.map (·.slot) = l.map (·.slot) := by
  have e := congrArg (List.map fun p : Prompt => p.slot) h
  rw [List.map_map, List.map_map] at e
  exact e

theorem slot_of_seated {x y : Prompt} (h : y.seated = x.seated) : y.slot = x.slot :=
  (congrArg Prompt.slot h : y.seated.slot = x.seated.slot)

theorem side_of_seated {x y : Prompt} (h : y.seated = x.seated) : y.side = x.side :=
  (congrArg Prompt.side h : y.seated.side = x.seated.side)

/-- A prompt of one of two tables seated alike has its like in the other. -/
theorem mem_of_seated {l l' : List Prompt} (h : l'.map Prompt.seated = l.map Prompt.seated) {x : Prompt} (hx : x ∈ l') :
    ∃ y ∈ l, y.seated = x.seated := by
  have hm := List.mem_map_of_mem (f := Prompt.seated) hx
  rw [h] at hm
  exact List.mem_map.1 hm

theorem slotsDistinct_of_seated {s t : State} (h : t.ptb.prompts.map Prompt.seated = s.ptb.prompts.map Prompt.seated)
    (hd : slotsDistinct s) : slotsDistinct t := by
  unfold slotsDistinct
  rw [slots_of_seated h]
  exact hd

theorem SpeechAlone.distinct {s t : State} (h : SpeechAlone s t) (hd : slotsDistinct s) : slotsDistinct t :=
  slotsDistinct_of_seated h.prompts hd

/-- A side stays without a turn where no new turn is granted. -/
theorem speaksElsewhere_of_turn {s t : State} {sd : Side} (h : t.ptb.prompts.map Prompt.seated = s.ptb.prompts.map Prompt.seated)
    (ht : ∀ n k, t.sch.turn = some (.prompt n k) → s.sch.turn = some (.prompt n k)) (hq : speaksElsewhere s sd) :
    speaksElsewhere t sd := by
  refine ⟨slotsDistinct_of_seated h hq.1, fun n k hn x hx hs => ?_⟩
  obtain ⟨y, hy, e⟩ := mem_of_seated h hx
  rw [← side_of_seated e]
  exact hq.2 n k (ht n k hn) y hy ((slot_of_seated e).trans hs)

/-! ### Prompts -/

theorem SpeechAlone.setPrompts (s : State) (l : List Prompt) (h : l.map Prompt.seated = s.ptb.prompts.map Prompt.seated) :
    SpeechAlone s (s.setPrompts l) :=
  ⟨rfl, rfl, rfl, fun _ => rfl, fun _ h => h, id, h, fun _ _ => speaksElsewhere_of_turn (t := s.setPrompts l) h fun _ _ => id⟩

theorem map_seated_onPrompt (s : State) (n : Nat) {f : Prompt → Prompt} (h : ∀ p ∈ s.ptb.prompts, p.slot = n → (f p).seated = p.seated) :
    (s.onPrompt n f).ptb.prompts.map Prompt.seated = s.ptb.prompts.map Prompt.seated := by
  show (s.ptb.prompts.map _).map Prompt.seated = _
  rw [List.map_map]
  refine List.map_congr_left fun p hp => ?_
  by_cases e : p.slot = n
  · simp [e, h p hp e]
  · simp [e]

theorem SpeechAlone.onPrompt (s : State) (n : Nat) (f : Prompt → Prompt) (h : ∀ p, (f p).seated = p.seated) :
    SpeechAlone s (s.onPrompt n f) := .setPrompts s _ (map_seated_onPrompt s n fun p _ _ => h p)

theorem seated_spanDelivered (p : Prompt) : (spanDelivered p).seated = p.seated := by
  have h : ∀ (a b : Active) (w : Active → PState), w = .granted ∨ w = .held → p.state = w b →
      ({ enterAfter (played p) with state := w a } : Prompt).seated = p.seated := by
    intro a b w hw hp
    have he := posted_enterAfter (played p)
    have hc : ({ enterAfter (played p) with state := w a } : Prompt).posted = p.posted := he.trans rfl
    unfold Prompt.seated
    rw [hc, hp]
    rcases hw with rfl | rfl <;> rfl
  unfold spanDelivered
  split
  · exact h _ _ .granted (.inl rfl) ‹_›
  · exact h _ _ .held (.inr rfl) ‹_›
  · rfl

theorem seated_repeatMade (p : Prompt) : (repeatMade p).seated = p.seated := by
  unfold repeatMade
  split <;> rfl

theorem seated_replayOver (p : Prompt) : (replayOver p).seated = p.seated := by
  unfold replayOver
  split <;> rfl

theorem seated_relieved (s : State) (p : Prompt) : (s.relieved p).seated = p.seated := by
  unfold State.relieved
  split
  · rfl
  · split
    · exact seated_spanDelivered p
    · split
      · exact seated_repeatMade p
      · rfl

theorem seated_grantedPrompt (s : State) (k : TurnKind) (p : Prompt) : (s.grantedPrompt k p).seated = p.seated := by
  unfold State.grantedPrompt
  cases k with
  | first => rfl
  | again => dsimp only; cases s.begins p .again <;> rfl
  | replay =>
    dsimp only
    split
    · split <;> rfl
    · rfl

/-! ### Records of the Scheduler and the Speech Engine -/

/-- A change of the Scheduler that grants no turn and leaves the sides, with one of the Speech Engine that does not silence it. -/
theorem SpeechAlone.of_speech (s : State) (turn : Option Turn) (preempt cut : Bool) (ending : Option Ending) (last : Option Port)
    (spe : SpeechEngine) (psc : PhraseStore) (stu : Service) (late : LateEnds) (ht : turn = none ∨ turn = s.sch.turn)
    (hs : spe.channel = .silenced → s.spe.channel = .silenced) :
    SpeechAlone s { s with sch := ⟨s.sch.sides, turn, preempt, cut, ending, last⟩, spe := spe, psc := psc, stu := stu, late := late } := by
  refine ⟨rfl, rfl, rfl, fun _ => rfl, fun _ h => h, hs, rfl, fun _ _ => speaksElsewhere_of_turn rfl fun n k h => ?_⟩
  rcases ht with e | e
  · rw [e] at h; cases h
  · rw [e] at h; exact h

theorem SpeechAlone.of_spe (s : State) (x : SpeechEngine) (hs : x.channel = .silenced → s.spe.channel = .silenced) :
    SpeechAlone s { s with spe := x } :=
  .of_speech s s.sch.turn s.sch.preempt s.sch.safetyCut s.sch.ending s.sch.lastChannel x s.psc s.stu s.late (.inr rfl) hs

theorem SpeechAlone.of_element (s : State) (e : Option ElementInPlay) : SpeechAlone s { s with spe := { s.spe with element := e } } :=
  .of_spe s _ id

theorem SpeechAlone.of_notes (s : State) (preempt cut : Bool) (ending : Option Ending) (last : Option Port) :
    SpeechAlone s { s with sch := ⟨s.sch.sides, s.sch.turn, preempt, cut, ending, last⟩ } :=
  .of_speech s s.sch.turn preempt cut ending last s.spe s.psc s.stu s.late (.inr rfl) id

/-- A change of a side's replay that records none where there was none. -/
theorem SpeechAlone.onReplay (s : State) (sd : Side) (f : SideSchedule → SideSchedule)
    (h : ∀ x, { f x with replay := none } = { x with replay := none }) (hr : ∀ x, x.replay = none → (f x).replay = none) :
    SpeechAlone s (s.onSchedule sd f) := by
  have hg : ∀ sd', (s.onSchedule sd f).schedule sd' = if sd' = sd then f (s.schedule sd') else s.schedule sd' :=
    fun sd' => PerSide.get_update _ _ _ _
  refine ⟨rfl, rfl, rfl, fun sd' => ?_, fun sd' hn => ?_, id, rfl, fun _ _ => speaksElsewhere_of_turn rfl fun _ _ => id⟩
  · rw [hg]
    split
    · exact h _
    · rfl
  · rw [hg]
    split
    · exact hr _ hn
    · exact hn

/-- Notices offered. -/
theorem SpeechAlone.of_nq (s : State) (q : PerPort NoticeQueue) : SpeechAlone s { s with nq := q } :=
  ⟨rfl, rfl, rfl, fun _ => rfl, fun _ h => h, id, rfl, fun _ _ => speaksElsewhere_of_turn rfl fun _ _ => id⟩

theorem SpeechAlone.offer (s : State) (p : Port) (n : Notice) : SpeechAlone s (s.offer p n) := by
  unfold State.offer
  split
  · exact .of_nq s _
  · exact .refl s

theorem SpeechAlone.offerRoom (s : State) (n : Notice) : SpeechAlone s (s.offerRoom n) := by
  unfold State.offerRoom
  split
  · exact .offer s _ n
  · exact .refl s

/-! ### The channel -/

theorem SpeechAlone.unpin (s : State) : SpeechAlone s s.unpin := by
  unfold State.unpin
  split
  · exact .refl s
  · exact .of_speech s s.sch.turn s.sch.preempt s.sch.safetyCut s.sch.ending s.sch.lastChannel _ _ s.stu s.late (.inr rfl) id

theorem SpeechAlone.clearTurn (s : State) : SpeechAlone s s.clearTurn :=
  (SpeechAlone.unpin s).trans (.of_speech s.unpin none false false none s.unpin.sch.lastChannel _ s.unpin.psc s.unpin.stu s.unpin.late
    (.inl rfl) fun h => nomatch h)

theorem SpeechAlone.setLastChannel (s : State) (o : Option Port) : SpeechAlone s (s.setLastChannel o) :=
  .of_notes s s.sch.preempt s.sch.safetyCut s.sch.ending o

theorem SpeechAlone.endTurn (s : State) (o : Port) : SpeechAlone s (s.endTurn o) := (SpeechAlone.clearTurn s).trans (.setLastChannel _ _)

/-- The top-ranked of some prompts is one of them. -/
theorem mem_of_topRanked {fair : Bool} {last : Option Port} {l : List Prompt} {x : Prompt} (h : topRanked fair last l = some x) :
    x ∈ l := by
  cases l with
  | nil => cases h
  | cons z l =>
    obtain ⟨p, l1, l2, h1, h2, -, -⟩ := topRanked_cons fair last l z
    rw [h1] at h
    cases h
    rw [h2]
    exact List.mem_append_right _ (List.mem_cons_self ..)

/-- A turn of a prompt that may speak is a candidate's: its side's mode is not OFF (R39). -/
theorem topTurn_prompt {s : State} {n : Nat} {k : TurnKind} (h : s.topTurn = some (.prompt n k)) :
    ∃ x ∈ s.ptb.prompts, x.slot = n ∧ (s.records x.side).session.mode ≠ .off := by
  have hb : ((topRanked s.cfg.fairTurn s.sch.lastChannel s.candidates).bind fun p => (s.owes p).map fun k => Turn.prompt p.slot k) =
      some (.prompt n k) := by
    unfold State.topTurn at h
    dsimp only at h
    split at h
    · split at h
      · cases h
      · split at h
        · cases h
        · exact h
    · exact h
  obtain ⟨x, hx, ho⟩ := Option.bind_eq_some_iff.1 hb
  obtain ⟨k', -, e⟩ := Option.map_eq_some_iff.1 ho
  cases e
  obtain ⟨j, hj⟩ := (State.mem_candidates_iff s x).1 (mem_of_topRanked hx)
  obtain ⟨hx, -, -, -, hmode, -⟩ := hj
  exact ⟨x, hx, rfl, hmode⟩

theorem SpeechAlone.recordTurn {s u : State} {turn : Turn} (h : s.topTurn = some turn) (hu : SpeechAlone s u) :
    SpeechAlone s (u.recordTurn turn) := by
  refine { hu with silent := fun h => (nomatch h), quiet := fun sd hm hq => ⟨hu.distinct hq.1, fun n k hn x hx hs => ?_⟩ }
  have e : turn = .prompt n k := Option.some.inj hn
  rw [e] at h
  obtain ⟨p, hp, hps, hpm⟩ := topTurn_prompt h
  obtain ⟨y, hy, ey⟩ := mem_of_seated hu.prompts hx
  have hslot := slot_of_seated ey
  have hside := side_of_seated ey
  have hyp : y = p := by
    have h1 := State.prompt_of_mem hq.1 hy
    have h2 := State.prompt_of_mem hq.1 hp
    rw [hslot, hs, ← hps, h2] at h1
    exact (Option.some.inj h1).symm
  intro hc
  rw [hyp] at hside
  rw [hside, hc] at hpm
  exact hpm hm

theorem SpeechAlone.startReplay (s : State) (sd : Side) : SpeechAlone s (s.startReplay sd) :=
  .onReplay s sd _ (fun _ => rfl) fun x h => by simp only [h, Option.map_none]

theorem SpeechAlone.repeatStopped (s : State) (n : Nat) : SpeechAlone s (s.repeatStopped n) :=
  .of_speech s s.sch.turn s.sch.preempt s.sch.safetyCut s.sch.ending s.sch.lastChannel s.spe s.psc s.stu _ (.inr rfl) id

/-- The grant of the top-ranked candidate's turn (R42). -/
theorem SpeechAlone.grantTurn {s : State} {turn : Turn} (h : s.topTurn = some turn) : SpeechAlone s (s.grantTurn turn) := by
  unfold State.grantTurn
  split
  · exact .recordTurn h (.refl s)
  · split
    · exact .refl s
    · rename_i slot kind _ p _
      refine .recordTurn h ?_
      have hg : SpeechAlone s (if kind = .replay then (s.onPrompt slot (s.grantedPrompt kind)).startReplay p.side
          else s.onPrompt slot (s.grantedPrompt kind)) := by
        refine (SpeechAlone.onPrompt s slot _ (seated_grantedPrompt s kind)).trans ?_
        split
        · exact .startReplay _ _
        · exact .refl _
      split
      · exact hg.trans (.repeatStopped _ _)
      · exact hg

theorem SpeechAlone.grantTop (s : State) : SpeechAlone s s.grantTop := by
  unfold State.grantTop
  split
  · exact .grantTurn ‹_›
  · exact .refl s

theorem SpeechAlone.relieve (s : State) : SpeechAlone s s.relieve := by
  refine .setPrompts s _ ?_
  rw [List.map_map]
  exact List.map_congr_left fun p _ => seated_relieved s p

theorem SpeechAlone.replayCut (s : State) (p : Prompt) (k : TurnKind) : SpeechAlone s (s.replayCut p k) := by
  unfold State.replayCut
  split
  · exact .onPrompt s _ _ seated_replayOver
  · exact .refl s

theorem SpeechAlone.preemptTurn (s : State) (p : Prompt) (k : TurnKind) : SpeechAlone s (s.preemptTurn p k) :=
  ((((SpeechAlone.replayCut s p k).trans (.clearTurn _)).trans (.relieve _)).trans (.grantTop _)).trans (.setLastChannel _ _)

theorem SpeechAlone.replayEnded (s : State) (sd : Side) (n : Nat) : SpeechAlone s (s.onSchedule sd (replayEnded n)) := by
  refine .onReplay s sd _ (fun x => ?_) fun x h => ?_ <;> unfold Machine.replayEnded
  · split
    · split <;> rfl
    · rfl
  · simp only [h]

theorem SpeechAlone.spanDone (s : State) (p : Prompt) (k : TurnKind) : SpeechAlone s (s.spanDone p k) := by
  cases k with
  | first => exact .onPrompt s _ _ seated_spanDelivered
  | again => exact .onPrompt s _ _ fun _ => rfl
  | replay => exact (SpeechAlone.onPrompt s _ _ fun x => (seated_replayOver (played x)).trans rfl).trans (.replayEnded _ _ _)

theorem SpeechAlone.deliverTurn (s : State) (p : Prompt) (k : TurnKind) : SpeechAlone s (s.deliverTurn p k) :=
  (SpeechAlone.spanDone s p k).trans (.endTurn _ _)

theorem SpeechAlone.loseTurn (s : State) (p : Prompt) (k : TurnKind) : SpeechAlone s (s.loseTurn p k) := by
  unfold State.loseTurn
  refine SpeechAlone.trans ?_ (.endTurn _ _)
  split
  · exact .onPrompt s _ _ seated_replayOver
  · exact .refl s

theorem SpeechAlone.endAudition (s : State) (v : Verdict) : SpeechAlone s (s.endAudition v) :=
  (((SpeechAlone.clearTurn s).trans (.setLastChannel _ _)).trans
    (.of_speech _ _ _ _ _ _ _ _ { (s.clearTurn.setLastChannel (s.portOf .room)).stu with audition := none } _ (.inr rfl) id)).trans
    (.offerRoom _ _)

theorem SpeechAlone.playElement (s : State) (w : List SpokenWord) (x : Playing) (n : Nat) : SpeechAlone s (s.playElement w x n) :=
  .of_spe s _ id

theorem SpeechAlone.onElement (s : State) (f : ElementInPlay → ElementInPlay) : SpeechAlone s (s.onElement f) := .of_spe s _ id

theorem SpeechAlone.elementEnded (s : State) (p : Prompt) (k : TurnKind) : SpeechAlone s (s.elementEnded p k) := by
  unfold State.elementEnded
  split
  · exact .loseTurn s p k
  · exact .deliverTurn s p k
  · split
    · exact .preemptTurn s p k
    · dsimp only
      refine (SpeechAlone.of_notes s false s.sch.safetyCut s.sch.ending s.sch.lastChannel).trans ?_
      split
      · exact (SpeechAlone.onPrompt _ _ _ fun _ => by rfl).trans (.of_element _ none)
      · exact .deliverTurn _ p k

theorem SpeechAlone.selfReset (s : State) (p : Prompt) (k : TurnKind) : SpeechAlone s (s.selfReset p k) :=
  ((SpeechAlone.spanDone s p k).trans (.endTurn _ _)).trans (.of_spe _ _ fun h => nomatch h)

theorem SpeechAlone.faultedPhrase (s : State) (p : Prompt) (k : TurnKind) (n : Nat) : SpeechAlone s (s.faultedPhrase p k n) := by
  unfold State.faultedPhrase
  dsimp only
  refine ((SpeechAlone.unpin s).trans (.offer _ p.owner (phraseFaultNotice (some p) 2 n))).trans ?_
  split
  · exact .onElement _ _
  · split
    · exact .selfReset _ p k
    · refine SpeechAlone.trans ?_ (.onElement _ _)
      exact .of_spe _ _ id

theorem SpeechAlone.cleanPhrase (s : State) : SpeechAlone s s.cleanPhrase := by
  unfold State.cleanPhrase
  split
  · exact .refl s
  · exact .of_spe s _ id

/-! ### Small steps -/

theorem SpeechAlone.beginBlock {s t f : State} {r : Resolution} {k : Nat} (hf : SpeechAlone s f) (h : s.beginBlock r k f = some t) :
    SpeechAlone s t := by
  simp only [State.beginBlock] at h
  split at h
  · split at h
    · cases h
    · cases h
      exact .of_spe s _ id
  · split at h
    · cases h
    · split at h
      · cases h; exact hf
      · cases h; exact .onElement s _

theorem SpeechAlone.promptElement {s t : State} {p : Prompt} {k : TurnKind} {e : ElementInPlay}
    (h : s.promptElement p k e = some t) : SpeechAlone s t := by
  unfold State.promptElement at h
  split at h
  · cases h
  · cases h
  · cases h; exact .elementEnded s p k
  · split at h
    · cases h; exact (SpeechAlone.offer s _ _).trans (.onElement _ _)
    · cases h; exact .onElement s _
  · split at h
    · cases h; exact .onElement s _
    · exact .beginBlock (.faultedPhrase s p k _) h

theorem SpeechAlone.auditionElement {s t : State} {e : ElementInPlay} (h : s.auditionElement e = some t) : SpeechAlone s t := by
  unfold State.auditionElement at h
  split at h
  · cases h
  · cases h
  · cases h; exact .endAudition s _
  · split at h
    · cases h; exact (SpeechAlone.offerRoom s _).trans (.endAudition _ _)
    · cases h; exact .onElement s _
  · split at h
    · cases h; exact .endAudition s _
    · exact .beginBlock ((SpeechAlone.offerRoom s _).trans (.endAudition _ _)) h

theorem SpeechAlone.notePreemption {s t : State} {p : Prompt} (h : s.notePreemption p = some t) : SpeechAlone s t := by
  unfold State.notePreemption at h
  split at h
  · cases h
  · split at h
    · cases h; exact .of_notes s _ _ _ _
    · split at h
      · cases h; exact .of_notes s _ _ _ _
      · cases h

theorem SpeechAlone.promptStep {s t : State} {p : Prompt} {k : TurnKind} (h : s.promptStep p k = some t) : SpeechAlone s t := by
  unfold State.promptStep at h
  split at h
  · rename_i s' hs
    cases h
    exact .notePreemption hs
  · split at h
    · split at h
      · cases h; exact .preemptTurn s p k
      · split at h
        · cases h; exact .playElement s _ _ _
        · cases h; exact .deliverTurn s p k
    · split at h
      · cases h; exact .preemptTurn s p k
      · exact .promptElement h

theorem SpeechAlone.auditionStep {s t : State} (h : s.auditionStep = some t) : SpeechAlone s t := by
  unfold State.auditionStep at h
  split at h
  · cases h; exact .clearTurn s
  · cases h; exact .playElement s _ _ _
  · exact .auditionElement h

theorem SpeechAlone.speechStep {s t : State} (h : s.speechStep = some t) : SpeechAlone s t := by
  unfold State.speechStep at h
  split at h
  · cases h; exact .relieve s
  · split at h
    · obtain ⟨x, hx, hg⟩ := Option.map_eq_some_iff.1 h
      subst hg
      exact .grantTurn hx
    · cases h
    · cases h
    · split at h
      · exact .auditionStep h
      · split at h
        · exact .promptStep h
        · cases h; exact .clearTurn s
      · cases h; exact .clearTurn s

theorem SpeechAlone.settleSteps : ∀ (n : Nat) (s : State), SpeechAlone s (State.settleSteps n s)
  | 0, s => .refl s
  | n + 1, s => by
    unfold State.settleSteps
    split
    · rename_i t h
      exact (SpeechAlone.speechStep h).trans (SpeechAlone.settleSteps n t)
    · exact .refl s

/-- Speech settling leaves regions, tones and grants, and silences nothing. -/
theorem SpeechAlone.settle (s : State) : SpeechAlone s s.settle := .settleSteps _ s

/-- A SILENCED channel stays so while speech settles: only deliveries in vain are taken (R40, R41). -/
theorem settleSteps_silenced : ∀ (n : Nat) (s : State), s.spe.channel = .silenced →
    (State.settleSteps n s).spe.channel = .silenced ∧ (State.settleSteps n s).spe.recovery = s.spe.recovery
  | 0, _, h => ⟨h, rfl⟩
  | n + 1, s, h => by
    unfold State.settleSteps
    split
    · rename_i t ht
      unfold State.speechStep at ht
      rw [h] at ht
      split at ht
      · cases ht
        exact settleSteps_silenced n s.relieve h
      · cases ht
    · exact ⟨h, rfl⟩

/-! ### Turns cut and replays cleared -/

theorem SpeechAlone.deliverSide (s : State) (sd : Side) : SpeechAlone s (s.deliverSide sd) := by
  unfold State.deliverSide
  split
  · split
    · exact .deliverTurn s _ _
    · exact .refl s
  · exact .refl s

theorem SpeechAlone.clearReplay (s : State) (sd : Side) : SpeechAlone s (s.clearReplay sd) := by
  unfold State.clearReplay
  split
  · exact .refl s
  · refine SpeechAlone.trans ?_ (.onReplay _ sd _ (fun _ => rfl) fun _ _ => rfl)
    split
    · exact .onPrompt s _ _ seated_replayOver
    · exact .refl s

theorem SpeechAlone.cutTurn (s : State) : SpeechAlone s s.cutTurn := by
  unfold State.cutTurn
  split
  · exact .preemptTurn s _ _
  · exact .refl s

/-- A side has no replay after it was cleared. -/
theorem replay_clearReplay (s : State) (sd : Side) : ((s.clearReplay sd).schedule sd).replay = none := by
  unfold State.clearReplay
  split
  · assumption
  · rw [State.schedule_onSchedule]

end Sys2Proof.Machine
end

section
/-! Speech mode OFF silences its side at once, by SET SPEECH MODE and by the SPEECH key (O27). -/

namespace Sys2Proof.Machine

open Sys2Proof.Claims

/-! ### A side without a speaker -/

/-- A prompt that a slot names is in the table, at that slot. -/
theorem State.prompt_some {s : State} {n : Nat} {x : Prompt} (h : s.prompt n = some x) : x ∈ s.ptb.prompts ∧ x.slot = n :=
  ⟨List.mem_of_find?_eq_some h, by simpa using List.find?_some h⟩

theorem State.speaker_some {s : State} {x : Prompt} {k : TurnKind} (h : s.speaker = some (x, k)) :
    s.sch.turn = some (.prompt x.slot k) ∧ s.prompt x.slot = some x := by
  unfold State.speaker at h
  split at h
  · rename_i n k' ht
    obtain ⟨y, hy, e⟩ := Option.map_eq_some_iff.1 h
    cases e
    obtain ⟨-, rfl⟩ := State.prompt_some hy
    exact ⟨ht, hy⟩
  · cases h

theorem speaksElsewhere.speaker {s : State} {sd : Side} (h : speaksElsewhere s sd) (x : Prompt) (k : TurnKind)
    (hx : s.speaker = some (x, k)) : x.side ≠ sd := by
  obtain ⟨ht, hp⟩ := State.speaker_some hx
  exact h.2 _ k ht x (State.prompt_some hp).1 rfl

/-- The rest of a side's speaking span taken as delivered at once leaves the channel to the other side, if to any. -/
theorem speaksElsewhere_deliverSide {s : State} (sd : Side) (hd : slotsDistinct s) : speaksElsewhere (s.deliverSide sd) sd := by
  refine ⟨(SpeechAlone.deliverSide s sd).distinct hd, fun n k hn x hx hs => ?_⟩
  have hm : ∀ {y}, y ∈ s.ptb.prompts → s.prompt y.slot = some y := State.prompt_of_mem hd
  unfold State.deliverSide at hn hx
  split at hn
  · rename_i p k' hp
    obtain ⟨ht, hpp⟩ := State.speaker_some hp
    by_cases hside : p.side = sd
    · rw [if_pos hside] at hn
      cases hn
    · rw [if_neg hside] at hn
      simp only [hp, if_neg hside] at hx
      rw [ht] at hn
      cases hn
      have hxp := hm hx
      rw [hs, hpp] at hxp
      cases hxp
      exact hside
  · rename_i hp
    simp only [hp] at hx
    have : s.speaker = some (x, k) := by
      unfold State.speaker
      rw [hn, ← hs]
      simp only [hm hx, Option.map_some]
    rw [hp] at this
    cases this

/-! ### The speech mode set (R61) -/

/-- The sides' speech modes are in their session records. -/
theorem mode_onSession (s : State) (sd : Side) (m : SpeechMode) :
    ((s.onSession sd fun x => { x with mode := m }).records sd).session.mode = m := by
  rw [State.records_onSession]

theorem modeSet_off (s : State) (sd : Side) :
    modeSet s sd .off = (((s.onSession sd fun x => { x with mode := .off }).deliverSide sd).clearReplay sd).settle := by
  unfold modeSet
  simp only [if_true, sideSpoken_eq, replayCleared_eq]

theorem modeSet_off_speech (s : State) (sd : Side) :
    SpeechAlone (s.onSession sd fun x => { x with mode := .off }) (modeSet s sd .off) := by
  rw [modeSet_off]
  exact ((SpeechAlone.deliverSide _ sd).trans (.clearReplay _ sd)).trans (.settle _)

theorem modeSet_off_presents (s : State) (sd : Side) :
    Presents (s.onSession sd fun x => { x with mode := .off }) (modeSet s sd .off) := by
  rw [modeSet_off]
  exact ((Presents.deliverSide _ sd).trans (.clearReplay _ sd)).trans (.settle _)

theorem modeSet_off_mode (s : State) (sd : Side) : ((modeSet s sd .off).records sd).session.mode = .off := by
  unfold State.records
  rw [(modeSet_off_speech s sd).scu]
  exact mode_onSession s sd .off

/-- OFF silences a side at once: nothing of it speaks, and no replay is pending there. -/
theorem modeSet_off_silences {s : State} (sd : Side) (hd : slotsDistinct s) :
    (∀ x k, (modeSet s sd .off).speaker = some (x, k) → x.side ≠ sd) ∧ ((modeSet s sd .off).schedule sd).replay = none := by
  have hq : speaksElsewhere ((s.onSession sd fun x => { x with mode := .off }).deliverSide sd) sd := speaksElsewhere_deliverSide sd hd
  have hm : ((((s.onSession sd fun x => { x with mode := .off }).deliverSide sd)).records sd).session.mode = .off := by
    unfold State.records
    rw [(SpeechAlone.deliverSide _ sd).scu]
    exact mode_onSession s sd .off
  rw [modeSet_off]
  exact ⟨(((SpeechAlone.clearReplay _ sd).trans (.settle _)).quiet sd hm hq).speaker,
    (SpeechAlone.settle _).replays sd (replay_clearReplay _ sd)⟩

/-- OFF while a prompt of the side makes its first delivery: the span counts as delivered at once. -/
theorem modeSet_off_delivers {s : State} {x : Prompt} (hd : slotsDistinct s) (ht : s.sch.turn = some (.prompt x.slot .first))
    (hx : s.prompt x.slot = some x) (hs : x.state = .granted .presenting) (hr : (s.schedule x.side).replay = none) :
    modeSet s x.side .off = (channelLastOwned (turnOver ((s.onSession x.side fun y => { y with mode := .off }).onPrompt x.slot fun y =>
      { deliveredFirst y (stateDelivered x) with state := .granted (stateDelivered x) }) .idle) (some x.owner)).settle := by
  have hu : (s.onSession x.side fun y => { y with mode := .off }).deliverSide x.side =
      (s.onSession x.side fun y => { y with mode := .off }).deliverTurn x .first := by
    have hsp : (s.onSession x.side fun y => { y with mode := .off }).speaker = some (x, .first) := by
      show (match s.sch.turn with
        | some (.prompt n k) => (s.prompt n).map fun p => (p, k)
        | _ => none) = _
      rw [ht]
      simp only [hx, Option.map_some]
    unfold State.deliverSide
    simp only [hsp, if_true]
  have hc : ((s.onSession x.side fun y => { y with mode := .off }).deliverTurn x .first).clearReplay x.side =
      (s.onSession x.side fun y => { y with mode := .off }).deliverTurn x .first := by
    have hn := (SpeechAlone.deliverTurn (s.onSession x.side fun y => { y with mode := .off }) x .first).replays x.side hr
    unfold State.clearReplay
    rw [hn]
  have hp : spanDelivered x = { deliveredFirst x (stateDelivered x) with state := .granted (stateDelivered x) } :=
    spanDelivered_presenting hs
  rw [modeSet_off, hu, hc]
  unfold State.deliverTurn State.spanDone State.endTurn
  rw [channelLastOwned_eq, turnOver_idle_eq]
  simp only
  rw [State.onPrompt_congr (s := s.onSession x.side fun y => { y with mode := .off }) (f := spanDelivered)
    (g := fun y => { deliveredFirst y (stateDelivered x) with state := .granted (stateDelivered x) }) hd hx hp]

/-! ### The SPEECH key (R78, R87) -/

/-- A command that makes a key event is that event taken (R76, R78). -/
theorem exec_keyEvent {s u : State} {c : Instr} {sd : Side} {k : Key} {hold : Bool} (h : makesKeyEvent s c sd k hold u) :
    exec c s = .next (u.takeKey sd k hold) := by
  obtain ⟨hs, ⟨rfl, rfl, hl, ⟨n, hb⟩, rfl⟩ | ⟨rfl, rfl, hb, rfl⟩⟩ := h
  · show Host.Outcome.next (s.pressKey sd k) = _
    unfold State.pressKey
    simp only [hl, hb, hs, Bool.false_eq_true, if_false]
    rfl
  · show Host.Outcome.next (s.holdKey sd k) = _
    unfold State.holdKey
    simp only [hb, hs, Bool.false_eq_true, if_false]
    rfl

/-- The contact behind a key event is the key's alone. -/
theorem makesKeyEvent_onKey {s u : State} {c : Instr} {sd : Side} {k : Key} {hold : Bool} (h : makesKeyEvent s c sd k hold u) :
    ∃ f, u = s.onKey sd k f := by
  obtain ⟨-, ⟨-, -, -, -, e⟩ | ⟨-, -, -, e⟩⟩ := h <;> exact ⟨_, e⟩

/-- Under a lit panel a session-start event needs no new render (R54, R152). -/
theorem sessionEvent_lit {s : State} (h : s.dsp.power ≠ .off) (sd : Side) : s.sessionEvent sd = eventPassed s sd := by
  rw [← eventWoken_eq]
  unfold eventWoken eventPassed sessionStarted
  rw [if_neg h]

/-- An accepted key event passes its session-start event and goes by its key (R78). -/
theorem takeKey_accepted {s : State} (h : keysAccepted s) (sd : Side) (k : Key) (hold : Bool) :
    s.takeKey sd k hold = (eventPassed s sd).acceptKey sd k hold := by
  obtain ⟨hc, hp⟩ := h
  have hl : s.dsp.power ≠ .off := by rcases hp with e | e <;> rw [e] <;> decide
  have hdark : s.panelDark = false := by
    unfold State.panelDark
    rcases hp with e | e <;> rw [e] <;> rfl
  unfold State.takeKey
  rw [hc, hdark, sessionEvent_lit hl]
  rfl

/-- The click of an accepted event (R80, R140). -/
theorem keyToned_click (s : State) (sd : Side) : keyToned s 14 sd .click = s.click sd := by
  have hd : toneDropped s.tgn.current .click = true ↔ ∃ t ∈ s.tgn.current, t.origin = .prompt .safety ∨ t.origin = .prompt .fault := by
    unfold toneDropped
    cases s.tgn.current <;> simp
  unfold keyToned State.click State.requestTone
  by_cases h : toneDropped s.tgn.current .click = true
  · rw [if_pos h, if_pos (hd.1 h)]
  · rw [if_neg h, if_neg fun z => h (hd.2 z), toneReplaced_eq]
    unfold startTone
    cases s.pattern 14 <;> rfl

/-- A session-start event leaves the speech mode of its side and the live prompts. -/
theorem eventPassed_keeps (s : State) (sd : Side) :
    ((eventPassed s sd).records sd).session.mode = (s.records sd).session.mode ∧ (eventPassed s sd).ptb = s.ptb := by
  unfold eventPassed
  split
  · exact ⟨by unfold idleRestarted State.records; cases sd <;> rfl, rfl⟩
  · unfold sessionBegun
    rw [State.offerMasked_eq]
    exact ⟨by unfold State.records; cases sd <;> rfl, rfl⟩

theorem records_click (s : State) (sd : Side) : (s.click sd).records = s.records := by
  unfold State.click State.requestTone
  split <;> rfl

theorem ptb_click (s : State) (sd : Side) : (s.click sd).ptb = s.ptb := by
  unfold State.click State.requestTone
  split <;> rfl

/-- The SPEECH key in mode ASSIST sets mode OFF (R87). -/
theorem acceptKey_speech_assist {s : State} {sd : Side} (h : (s.records sd).session.mode = .assist) (hold : Bool) :
    s.acceptKey sd .speech hold = modeSet (keyToned s 14 sd .click) sd .off := by
  have hc : ((s.click sd).records sd).session.mode = .assist := by rw [records_click]; exact h
  show (s.click sd).putMode sd (nextMode (s.modeOf sd)) = _
  unfold State.modeOf
  rw [h, keyToned_click]
  exact State.putMode_eq (by rw [hc]; decide)

/-! ### The request (R61) -/

theorem exec_setSpeechMode (s : State) (p : Port) (q b v : Byte) :
    exec (.setSpeechMode p q b v) s = .next (s.requestArrives p q (.setSpeechMode b v)) := rfl

/-- SET SPEECH MODE with mode OFF on an ACTIVE side of another mode. -/
theorem setSpeechMode_off {s : State} {p : Port} {b v : Byte} {sd : Side} (q : Byte) (h : ready s p 0x23) (hb : sideOf b = some sd)
    (hr : roleReachesSide (s.link p).role sd = true) (hv : speechModeOf v = some .off) (ha : (s.records sd).session.active = true)
    (hm : (s.records sd).session.mode ≠ .off) :
    s.requestArrives p q (.setSpeechMode b v) = repliedWork (modeSet (receiving s p .hunt) sd .off) p 0x23 q .ok [] := by
  refine requestArrives_ready (r := .setSpeechMode b v) q h rfl ?_ (modeSet_off_presents _ sd).lnk
  show (receiving s p .hunt).withSide p b _ = _
  rw [withSide_reached hb hr]
  have ha' : ((receiving s p .hunt).records sd).session.active = true := ha
  simp only [hv, ha', if_true]
  rw [State.putMode_eq (s := receiving s p .hunt) (sd := sd) (m := .off) hm]

/-- Settles O27: what OFF does, then that the request and the key do it. -/
theorem modeOffSilencesSide : Obligations.ModeOffSilencesSide := by
  refine ⟨fun s sd hd hm => ?_, fun s p q b v sd h hb hr hd hv ha hm => ?_, fun s u c sd hold hk hacc hd hm => ?_⟩
  · rw [State.putMode_eq hm]
    obtain ⟨hq, hr⟩ := modeSet_off_silences sd hd
    exact ⟨hq, hr, rfl, fun x ht hx hside hs hn => by subst hside; exact modeSet_off_delivers hd ht hx hs hn⟩
  · obtain ⟨hq, hn⟩ := modeSet_off_silences (s := receiving s p .hunt) sd hd
    exact ⟨_, by rw [exec_setSpeechMode, setSpeechMode_off q h hb hr hv ha hm], rfl, modeSet_off_mode _ sd, hq, hn⟩
  · obtain ⟨f, rfl⟩ := makesKeyEvent_onKey hk
    obtain ⟨hmode, hptb⟩ := eventPassed_keeps (s.onKey sd .speech f) sd
    have hd' : slotsDistinct (keyToned (eventPassed (s.onKey sd .speech f) sd) 14 sd .click) := by
      unfold slotsDistinct
      rw [keyToned_click, ptb_click, hptb]
      exact hd
    obtain ⟨hq, hn⟩ := modeSet_off_silences sd hd'
    refine ⟨_, ?_, rfl, modeSet_off_mode _ sd, hq, hn⟩
    rw [exec_keyEvent hk, takeKey_accepted (s := s.onKey sd .speech f) hacc]
    exact congrArg _ (acceptKey_speech_assist (hmode.trans hm) hold)

end Sys2Proof.Machine
end

section
/-! Auditions, RESTORE SPEECH, the end of a recovery, and the grant of the channel in IDLE (O47). -/

namespace Sys2Proof.Machine

open Sys2Proof.Claims

/-! ### Notices to the ROOM port (R167, R181) -/

theorem queueAfter_eq (l : List Notice) (n : Notice) : queueAfter l n = pushNotice l n := by
  have h : l.length ≤ 14 ↔ l.length < Config.noticePlaces - 1 := by
    unfold Config.noticePlaces
    omega
  unfold queueAfter pushNotice
  simp only [h]
  rfl

theorem State.role_of_portOf {s : State} {r : Role} {p : Port} (h : s.portOf r = some p) : (s.link p).role = some r := by
  unfold State.portOf at h
  simpa using List.find?_some h

/-- An offer to the ROOM port stands at the tail of that port's queue (R167). -/
theorem noticesOf_offerRoom {s : State} {r : Port} (h : s.portOf .room = some r) (n : Notice) :
    noticesOf (s.offerRoom n) r = queueAfter (noticesOf s r) n := by
  have hr : (s.link r).role.isSome = true := by rw [State.role_of_portOf h]; rfl
  unfold State.offerRoom noticesOf
  simp only [h]
  unfold State.offer
  rw [if_pos hr, queueAfter_eq, State.onQueue_nq, PerPort.get_update_same]
  rfl

/-! ### Auditions (R49, R180) -/

/-- The notice of an aborted audition. -/
def abortNotice : Notice := ⟨.testDone, none, none, 5, 3, false⟩

/-- A new audition takes the place of the one that ended, so it does not matter whether that one was forgotten before its notice. -/
theorem auditionAsked_forgotten (s : State) (n : Notice) (a : Audition) :
    auditionAsked (({ s with stu := { s.stu with audition := none } } : State).offerRoom n) a = auditionAsked (s.offerRoom n) a := by
  rw [offerRoom_comm (g := fun s => { s with stu := { s.stu with audition := none } }) (fun _ => rfl) (fun _ _ _ => rfl)]
  rfl

theorem auditionAsked_first {s : State} (h : s.stu.audition = none) (a : Audition) :
    auditionAsked s.abortAudition a = auditionAsked s a := by
  unfold State.abortAudition
  rw [h]

theorem auditionAsked_waiting {s : State} (h : s.stu.audition ≠ none) (ht : s.sch.turn ≠ some .audition) (a : Audition) :
    auditionAsked s.abortAudition a = auditionAsked (s.offerRoom abortNotice) a := by
  obtain ⟨b, hb⟩ := Option.ne_none_iff_exists'.1 h
  rw [← auditionAsked_forgotten]
  unfold State.abortAudition
  simp only [hb, if_neg ht]
  rfl

theorem auditionAsked_speaking {s : State} (h : s.stu.audition ≠ none) (ht : s.sch.turn = some .audition) (a : Audition) :
    auditionAsked s.abortAudition a =
      auditionAsked ((channelLastOwned (turnOver s .idle) (s.portOf .room)).offerRoom abortNotice) a := by
  obtain ⟨b, hb⟩ := Option.ne_none_iff_exists'.1 h
  rw [← auditionAsked_forgotten, turnOver_idle_eq, channelLastOwned_eq]
  unfold State.abortAudition
  simp only [hb, if_pos ht]
  rfl

theorem Presents.abortAudition (s : State) : Presents s s.abortAudition := by
  unfold State.abortAudition
  split
  · exact .refl s
  · split
    · exact .endAudition s _
    · exact (Presents.of_audition s none).trans (.offerRoom _ _)

theorem Presents.auditionAsked (s : State) (a : Audition) : Presents s (auditionAsked s a) := .of_audition s _

/-- An earlier audition ends with ABORTED (R180). -/
theorem noticesOf_abortAudition {s : State} (h : s.stu.audition ≠ none) {r : Port} (hr : s.portOf .room = some r) :
    noticesOf s.abortAudition r = queueAfter (noticesOf s r) abortNotice := by
  obtain ⟨b, hb⟩ := Option.ne_none_iff_exists'.1 h
  have hq : ∀ u : State, u.nq = s.nq → u.lnk = s.lnk →
      noticesOf (u.offerRoom abortNotice) r = queueAfter (noticesOf s r) abortNotice := by
    intro u hn hl
    have hp : u.portOf .room = some r := (State.portOf_congr (fun p => by unfold State.link; rw [hl]) .room).trans hr
    rw [noticesOf_offerRoom hp]
    unfold noticesOf
    rw [hn]
  have hc : s.clearTurn.nq = s.nq ∧ s.clearTurn.lnk = s.lnk := by
    unfold State.clearTurn State.unpin
    split <;> exact ⟨rfl, rfl⟩
  unfold State.abortAudition
  simp only [hb]
  split
  · exact hq _ hc.1 hc.2
  · exact hq _ rfl rfl

/-- What an AUDITION in range leaves, speech settled. -/
theorem startAuditioning_ok {s : State} {n l : Byte} {lang : Fin 4} (hn : n ≠ 0xFF) (hl : fourOf l = some lang) :
    s.startAuditioning n l = (.answer .ok [], (auditionAsked s.abortAudition ⟨n.toNat, lang⟩).settle) := by
  have h : n.toNat ≤ lastPhrase := by unfold lastPhrase; bv_omega
  unfold State.startAuditioning
  simp only [hl, if_pos h]
  rfl

theorem fourOf_eq_none_iff (b : Byte) : fourOf b = none ↔ 3 < b.toNat := by
  unfold fourOf
  split <;> simp <;> omega

theorem startAuditioning_badField (s : State) {n l : Byte} (h : n = 0xFF ∨ 3 < l.toNat) :
    s.startAuditioning n l = (.answer .badField [], s) := by
  unfold State.startAuditioning
  split
  · rfl
  · rename_i lang hl
    have hne : ¬ 3 < l.toNat := fun z => by rw [(fourOf_eq_none_iff l).2 z] at hl; cases hl
    have hn : ¬ n.toNat ≤ lastPhrase := by
      rw [h.resolve_right hne]
      decide
    exact if_neg hn

theorem startAuditioning_presents (s : State) (a : Audition) : Presents s (auditionAsked s.abortAudition a).settle :=
  ((Presents.abortAudition s).trans (.auditionAsked _ a)).trans (.settle _)

theorem exec_audition (s : State) (p : Port) (q n l : Byte) :
    exec (.audition p q n l) s = .next (s.requestArrives p q (.audition n l)) := rfl

/-- An AUDITION in range is answered OK once speech has settled. -/
theorem audition_ok {s : State} {p : Port} {n l : Byte} {lang : Fin 4} (q : Byte) (h : ready s p 0x55) (hn : n ≠ 0xFF)
    (hl : fourOf l = some lang) : s.requestArrives p q (.audition n l) =
      repliedWork (auditionAsked (receiving s p .hunt).abortAudition ⟨n.toNat, lang⟩).settle p 0x55 q .ok [] :=
  requestArrives_ready (r := .audition n l) q h rfl (startAuditioning_ok hn hl) (startAuditioning_presents _ _).lnk

theorem portOf_receiving (s : State) (p : Port) (r : Role) : (receiving s p .hunt).portOf r = s.portOf r := by
  rw [receiving_eq, State.portOf_receiver]

/-- A waiting audition changes nothing of a channel that is RECOVERING or SILENCED. -/
theorem settle_asked {s : State} (a : Audition) (hv : s.owesInVain = false)
    (hc : s.spe.channel = .recovering ∨ s.spe.channel = .silenced) : (auditionAsked s a).settle = auditionAsked s a := by
  refine State.settle_of_none ?_
  have hv' : (auditionAsked s a).owesInVain = false := hv
  have hc' : (auditionAsked s a).spe.channel = .recovering ∨ (auditionAsked s a).spe.channel = .silenced := hc
  unfold State.speechStep
  rw [hv']
  rcases hc' with hc' | hc' <;> simp only [hc', Bool.false_eq_true, if_false]

/-! ### RESTORE SPEECH and the end of a recovery (R132, R133) -/

/-- The offers to every port of a state whose Speech Engine is another. -/
theorem offerEach_spe (s : State) (x : SpeechEngine) (ps : List Port) (n : Notice) :
    ({ s with spe := x } : State).offerEach ps n = { s.offerEach ps n with spe := x } :=
  offerEach_comm (g := fun s => { s with spe := x }) (fun _ => rfl) (fun _ _ _ => rfl) n ps s

theorem offerEach_receiving (s : State) (p : Port) (ps : List Port) (n : Notice) :
    (receiving s p .hunt).offerEach ps n = receiving (s.offerEach ps n) p .hunt :=
  State.offerEach_onLink p (fun l => heard l .hunt) (fun _ => rfl) n ps s

theorem spe_offerEach (s : State) (ps : List Port) (n : Notice) : (s.offerEach ps n).spe = s.spe := by rw [State.offerEach_eq]

/-- Beside the notices offered with it, a change of the Speech Engine that leaves the pin is presentation. -/
theorem Presents.offerEach_spe (s : State) {x : SpeechEngine} (hx : x.pin = s.spe.pin) (ps : List Port) (n : Notice) :
    Presents (s.offerEach ps n) (({ s with spe := x } : State).offerEach ps n) := by
  rw [Machine.offerEach_spe s x]
  exact .of_spe _ _ fun page h => .inl (by rw [spe_offerEach, ← hx]; exact h)

theorem restoreSpeech_speaking {s : State} (h : s.spe.channel ≠ .silenced) :
    s.restoreSpeech = { s with spe := { s.spe with faults := 0, resets := 0 } } := by
  unfold State.restoreSpeech
  simp only [if_neg h]

/-- RESTORE SPEECH on a SILENCED channel, before the channel settles. -/
def speechRestored (s : State) : State :=
  ({ s with spe := { s.spe with faults := 0, resets := 0, channel := .idle } } : State).offerEach [.a, .b, .c, .d]
    ⟨.speechState, none, none, 2, 0, false⟩

theorem restoreSpeech_silenced {s : State} (h : s.spe.channel = .silenced) : s.restoreSpeech = (speechRestored s).settle := by
  unfold State.restoreSpeech
  simp only [if_pos h]
  rfl

/-- Beside its notices, a channel restored is presentation. -/
theorem speechRestored_presents (s : State) :
    Presents (s.offerEach [.a, .b, .c, .d] ⟨.speechState, none, none, 2, 0, false⟩) (speechRestored s) :=
  .offerEach_spe s (x := { s.spe with faults := 0, resets := 0, channel := .idle }) rfl _ _

theorem speechRestored_idle (s : State) : (speechRestored s).spe.channel = .idle := by
  unfold speechRestored
  rw [spe_offerEach]

theorem exec_restoreSpeech (s : State) (p : Port) (q : Byte) :
    exec (.restoreSpeech p q) s = .next (s.requestArrives p q .restoreSpeech) := rfl

/-- RESTORE SPEECH of a channel that is not SILENCED clears the counts. -/
theorem restoreSpeech_counts {s : State} {p : Port} (q : Byte) (h : ready s p 0x56) (hc : s.spe.channel ≠ .silenced) :
    s.requestArrives p q .restoreSpeech = answered { s with spe := { s.spe with faults := 0, resets := 0 } } p 0x56 q .ok [] := by
  rw [answered_eq]
  exact requestArrives_ready (r := .restoreSpeech) q h rfl
    (congrArg (Prod.mk _) (restoreSpeech_speaking (s := receiving s p .hunt) hc)) rfl

/-- RESTORE SPEECH of a SILENCED channel. -/
theorem restoreSpeech_restores {s : State} {p : Port} (q : Byte) (h : ready s p 0x56) (hc : s.spe.channel = .silenced) :
    s.requestArrives p q .restoreSpeech = repliedWork (speechRestored (receiving s p .hunt)).settle p 0x56 q .ok [] := by
  refine requestArrives_ready (r := .restoreSpeech) q h rfl
    (congrArg (Prod.mk _) (restoreSpeech_silenced (s := receiving s p .hunt) hc)) ?_
  refine (Presents.settle _).lnk.trans ?_
  unfold speechRestored
  rw [State.offerEach_eq]

theorem exec_recoveryEnd (s : State) : exec .recoveryEnd s = .next s.recoveryEnd := rfl

/-- A channel fallen silent after a self-reset, before what it owes settles (R41, R132). -/
theorem silence_eq (s : State) : s.silence =
    replayCleared (replayCleared (({ s with spe := { s.spe with channel := .silenced, recovery := none } } : State).offerEach
      [.a, .b, .c, .d] ⟨.speechState, none, none, 1, BitVec.ofNat 16 s.spe.resets, false⟩) .lower) .upper := by
  rw [replayCleared_eq, replayCleared_eq]
  rfl

theorem spe_clearReplay (s : State) (sd : Side) : (s.clearReplay sd).spe = s.spe := by
  unfold State.clearReplay
  split
  · rfl
  · dsimp only
    split <;> rfl

theorem silence_channel (s : State) : s.silence.spe.channel = .silenced ∧ s.silence.spe.recovery = none := by
  unfold State.silence
  rw [spe_clearReplay, spe_clearReplay]
  unfold State.offerAll
  rw [spe_offerEach]
  exact ⟨rfl, rfl⟩

/-- A channel fallen silent has no replay pending (R41). -/
theorem silence_replay (s : State) (sd : Side) : (s.silence.schedule sd).replay = none := by
  unfold State.silence
  cases sd
  · exact (SpeechAlone.clearReplay _ .upper).replays .lower (replay_clearReplay _ .lower)
  · exact replay_clearReplay _ .upper

theorem silence_presents (s : State) :
    Presents (s.offerEach [.a, .b, .c, .d] ⟨.speechState, none, none, 1, BitVec.ofNat 16 s.spe.resets, false⟩) s.silence :=
  ((Presents.offerEach_spe s (x := { s.spe with channel := .silenced, recovery := none }) rfl _ _).trans
    (.clearReplay _ .lower)).trans (.clearReplay _ .upper)

/-! ### The grant of the channel in IDLE (R39, R42, R49) -/

section
variable {s : State}

/-- Without a candidate, the channel waits. -/
theorem topTurn_none (h : ∀ x k, ¬ channelCandidate s x k) (ha : ¬ auditionWaiting s) : s.topTurn = none := by
  have hc : s.candidates = [] := List.eq_nil_iff_forall_not_mem.2 fun x hx => by
    obtain ⟨k, hk⟩ := (State.mem_candidates_iff s x).1 hx
    exact h x k hk
  have hw : s.auditionWaits = false := Bool.eq_false_iff.2 fun z => ha ((State.auditionWaits_iff s).1 z)
  unfold State.topTurn
  rw [hc, hw]
  rfl

/-- A waiting audition that ranks above every candidate is next. -/
theorem topTurn_audition (ha : auditionWaiting s) (h : ∀ x k, channelCandidate s x k → auditionAbove s x) :
    s.topTurn = some .audition := by
  unfold State.topTurn
  simp only [(State.auditionWaits_iff s).2 ha, if_true]
  split
  · rfl
  · rename_i x hx
    obtain ⟨k, hk⟩ := (State.mem_candidates_iff s x).1 (mem_of_topRanked hx)
    rw [if_pos ((auditionKey_above_iff s x).2 (h x k hk))]

/-- The candidate that ranks above every other, and not below a waiting audition, is next. -/
theorem topTurn_candidate (hd : slotsDistinct s) {x : Prompt} {k : TurnKind} (hx : channelCandidate s x k)
    (h : ∀ y k', channelCandidate s y k' → y ≠ x → ranksAbove s.cfg.fairTurn s.sch.lastChannel s.ptb.prompts x y)
    (ha : auditionWaiting s → ¬ auditionAbove s x) : s.topTurn = some (.prompt x.slot k) := by
  have ht : topRanked s.cfg.fairTurn s.sch.lastChannel s.candidates = some x := by
    refine topRanked_eq_some (posted_nodup hd) List.filter_sublist ((State.mem_candidates_iff s x).2 ⟨k, hx⟩) fun y hy hne => ?_
    obtain ⟨k', hk'⟩ := (State.mem_candidates_iff s y).1 hy
    exact h y k' hk' hne
  obtain ⟨-, -, -, -, -, howes⟩ := hx
  have ho : s.owes x = some k := (State.owes_iff s x k).2 howes
  unfold State.topTurn
  simp only [ht, Option.bind_some, ho, Option.map_some]
  split
  · rename_i hw
    rw [if_neg fun z => ha ((State.auditionWaits_iff s).1 hw) ((auditionKey_above_iff s x).1 z)]
  · rfl

/-- The grant in IDLE, whole. -/
theorem idle_grants (hc : s.spe.channel = .idle) (hv : s.owesInVain = false) (hd : slotsDistinct s) :
    ((∀ x k, ¬ channelCandidate s x k) → ¬ auditionWaiting s → s.speechStep = none) ∧
    (auditionWaiting s → (∀ x k, channelCandidate s x k → auditionAbove s x) → s.speechStep = some (speakingFor s .audition)) ∧
    ∀ x k, channelCandidate s x k →
      (∀ y k', channelCandidate s y k' → y ≠ x → ranksAbove s.cfg.fairTurn s.sch.lastChannel s.ptb.prompts x y) →
      (auditionWaiting s → ¬ auditionAbove s x) →
      (turnBegins s x k → s.speechStep = some (turnGranted s x (turnBegun s x k) k)) ∧
      (¬ turnBegins s x k → s.speechStep = some (turnGranted s x { x with hasSpoken := true } k)) := by
  rw [State.speechStep_idle hc hv]
  refine ⟨fun h ha => by rw [topTurn_none h ha]; rfl, fun ha h => by rw [topTurn_audition ha h]; rfl, fun x k hx h ha => ?_⟩
  have hp : s.prompt x.slot = some x := State.prompt_of_mem hd hx.1
  rw [topTurn_candidate hd hx h ha]
  exact ⟨fun hb => congrArg some (State.grantTurn_begins hd hp hb), fun hb => congrArg some (State.grantTurn_goes_on hd hp hb)⟩

end

/-! ### The statement -/

/-- AUDITION in range (R49, R180). -/
theorem audition_leaves {s : State} {p : Port} {q n l : Byte} {lang : Fin 4} (h : ready s p 0x55) (hn : n ≠ 0xFF)
    (hl : fourOf l = some lang) : ∃ t, exec (.audition p q n l) s = .next t ∧ Presents (answered s p 0x55 q .ok []) t ∧
      (s.stu.audition ≠ none → ∀ r, s.portOf .room = some r → queueAfter (noticesOf s r) abortNotice <+: noticesOf t r) ∧
      t = repliedWork (auditionAsked (receiving s p .hunt).abortAudition ⟨n.toNat, lang⟩).settle p 0x55 q .ok [] := by
  refine ⟨_, by rw [exec_audition, audition_ok q h hn hl], ?_, fun ha r hr => ?_, rfl⟩
  · rw [answered_eq]
    exact (startAuditioning_presents _ _).repliedWork ..
  · have ha' : (receiving s p .hunt).stu.audition ≠ none := ha
    have hq := noticesOf_abortAudition ha' ((portOf_receiving s p .room).trans hr)
    have hs := ((Presents.auditionAsked (receiving s p .hunt).abortAudition ⟨n.toNat, lang⟩).trans (.settle _)).notices r
    exact hq ▸ hs

/-- Settles O47: the requests and the recovery timer by their operations, the grant by the ranking of the candidates. -/
theorem speechServed : Obligations.SpeechServed := by
  refine ⟨fun s p q n l h => ⟨fun hb => ?_, fun lang hn hl => ?_⟩, fun s p q h => ⟨fun hc => ?_, fun hc => ?_⟩,
    fun s => ⟨fun hc => ?_, fun hc => ⟨fun hl hr => ?_, fun hl => ?_⟩⟩, fun s hc hv hd => idle_grants hc hv hd⟩
  · rw [exec_audition, requestArrives_unchanged (r := .audition n l) q h rfl (startAuditioning_badField _ hb)]
    rfl
  · obtain ⟨t, ht, hp, hq, rfl⟩ := audition_leaves (q := q) h hn hl
    refine ⟨_, ht, hp, hq, fun ha => ?_, fun ha hs => ?_, fun ha hs => ?_, fun ha hv hc => ?_⟩
    · rw [auditionAsked_first (s := receiving s p .hunt) ha]
    · rw [auditionAsked_waiting (s := receiving s p .hunt) ha hs]
      rfl
    · rw [auditionAsked_speaking (s := receiving s p .hunt) ha hs, portOf_receiving]
      rfl
    · rw [auditionAsked_first (s := receiving s p .hunt) ha, settle_asked (s := receiving s p .hunt) _ hv hc, answered_eq]
      rfl
  · rw [exec_restoreSpeech, restoreSpeech_counts q h hc]
  · refine ⟨_, (exec_restoreSpeech s p q).trans (congrArg _ (restoreSpeech_restores q h hc)), fun hs => ?_, ?_, rfl⟩
    · have hi := (SpeechAlone.settle (speechRestored (receiving s p .hunt))).silent hs
      rw [speechRestored_idle] at hi
      cases hi
    · rw [answered_eq, ← offerEach_receiving]
      exact ((speechRestored_presents _).trans (.settle _)).repliedWork ..
  · rw [exec_recoveryEnd]
    unfold State.recoveryEnd
    rw [if_neg hc]
  · have hm : s.recoveryEnd = s.silence.settle := by
      unfold State.recoveryEnd
      rw [if_pos hc, if_pos ⟨hl, hr⟩]
    obtain ⟨hch, hrec⟩ := silence_channel s
    obtain ⟨hch', hrec'⟩ := settleSteps_silenced settleBound s.silence hch
    refine ⟨_, by rw [exec_recoveryEnd, hm], (silence_presents s).trans (.settle _), hch', hrec'.trans hrec, fun sd => ?_, ?_⟩
    · exact (SpeechAlone.settle _).replays sd (silence_replay s sd)
    · rw [← silence_eq]
  · have hn : ¬ (s.cfg.lockOnFault = true ∧ 2 ≤ s.spe.resets) := by
      rintro ⟨a, b⟩
      rcases hl with hl | hl
      · rw [hl] at a; cases a
      · omega
    have hm : s.recoveryEnd = ({ s with spe := { s.spe with channel := .idle, recovery := none } } : State).settle := by
      unfold State.recoveryEnd
      rw [if_pos hc, if_neg hn]
    exact ⟨_, by rw [exec_recoveryEnd, hm], (Presents.of_spe s _).trans (.settle _), rfl, State.settle_of_none⟩

end Sys2Proof.Machine
end

section
/-! The ends of blocks and of pieces of pauses, and the small steps of a turn (O54). -/

namespace Sys2Proof.Machine

open Sys2Proof.Claims

/-! ### The element in play -/

/-- A change of the element in play, where one is in play. -/
theorem onElement_eq {s : State} {e : ElementInPlay} (h : s.spe.element = some e) (f : ElementInPlay → ElementInPlay) :
    s.onElement f = elementAt s (f e) := by
  unfold State.onElement elementAt
  rw [h]
  rfl

theorem element_unpin (s : State) : s.unpin.spe.element = s.spe.element := by
  unfold State.unpin
  split <;> rfl

theorem element_offer (s : State) (p : Port) (n : Notice) : (s.offer p n).spe = s.spe := by
  unfold State.offer
  split <;> rfl

theorem resets_unpin (s : State) : s.unpin.spe.resets = s.spe.resets := by
  unfold State.unpin
  split <;> rfl

/-! ### Blocks and pieces of pauses end (R125, R127, R128, R130) -/

theorem phraseClean_eq (s : State) : phraseClean s = s.cleanPhrase := rfl

theorem turnCut_eq (s : State) : turnCut s = s.cutTurn := rfl

theorem leavesPage_iff (r : Resolution) (k : Nat) : leavesPage r k = true ↔ r.blocks ≤ k + 1 ∨ (k + 1) % 8 = 7 := by
  unfold leavesPage
  rw [Bool.or_eq_true, decide_eq_true_eq, decide_eq_true_eq]
  rfl

/-- The state before a block that has been played is followed. -/
theorem blockOver_eq (s : State) (r : Resolution) (k : Nat) : blockOver s r k =
    if r.blocks ≤ k + 1 then (if leavesPage r k = true then s.unpin else s).cleanPhrase
    else if leavesPage r k = true then s.unpin else s := by
  unfold blockOver
  simp only [unpinned_eq, phraseClean_eq, leavesPage_iff]

theorem blockOver_presents (s : State) (r : Resolution) (k : Nat) : Presents s (blockOver s r k) := by
  have hu : Presents s (if leavesPage r k = true then s.unpin else s) := by
    split
    · exact .unpin s
    · exact .refl s
  rw [blockOver_eq]
  split
  · exact hu.trans (.cleanPhrase _)
  · exact hu

theorem blockOver_speech (s : State) (r : Resolution) (k : Nat) : SpeechAlone s (blockOver s r k) := by
  have hu : SpeechAlone s (if leavesPage r k = true then s.unpin else s) := by
    split
    · exact .unpin s
    · exact .refl s
  rw [blockOver_eq]
  split
  · exact hu.trans (.cleanPhrase _)
  · exact hu

theorem cleanPhrase_turn (s : State) : s.cleanPhrase.sch = s.sch ∧ s.cleanPhrase.spe.element = s.spe.element := by
  unfold State.cleanPhrase
  split <;> exact ⟨rfl, rfl⟩

/-- What stands between a block and its follower touches neither the turn nor the element. -/
theorem blockOver_turn (s : State) (r : Resolution) (k : Nat) :
    (blockOver s r k).sch = s.sch ∧ (blockOver s r k).spe.element = s.spe.element := by
  have hu : (if leavesPage r k = true then s.unpin else s).sch = s.sch ∧
      (if leavesPage r k = true then s.unpin else s).spe.element = s.spe.element := by
    split
    · exact ⟨by unfold State.unpin; split <;> rfl, element_unpin s⟩
    · exact ⟨rfl, rfl⟩
  rw [blockOver_eq]
  split
  · obtain ⟨hsch, hel⟩ := cleanPhrase_turn (if leavesPage r k = true then s.unpin else s)
    exact ⟨hsch.trans hu.1, hel.trans hu.2⟩
  · exact hu

/-- The element after a block that has been played: its word's end, or the word's next block. -/
theorem afterBlock_eq (r : Resolution) (k : Nat) (e : ElementInPlay) : afterBlock r k e =
    if r.blocks ≤ k + 1 then { wordLeft e with samples := [] } else { e with at_ := .ready (k + 1), samples := [] } := rfl

/-- A block that has been played: its turn is cut for SAFETY, or its element goes on. -/
theorem blockPlayed_eq {s : State} {e : ElementInPlay} (he : s.spe.element = some e) (r : Resolution) (k : Nat) : s.blockPlayed r k =
    if s.sch.safetyCut = true then turnCut (blockOver s r k) else elementAt (blockOver s r k) (afterBlock r k e) := by
  obtain ⟨hsch, hel⟩ := blockOver_turn s r k
  have hb : s.blockPlayed r k =
      if (blockOver s r k).sch.safetyCut = true then (blockOver s r k).cutTurn else (blockOver s r k).onElement (afterBlock r k) := by
    rw [blockOver_eq]
    rfl
  rw [hb, hsch, turnCut_eq, onElement_eq (hel.trans he)]

theorem exec_blockEnd (s : State) : exec .blockEnd s = .next s.blockEnd := rfl

theorem exec_pausePieceEnd (s : State) : exec .pausePieceEnd s = .next s.pieceEnd := rfl

/-- With no block of a resolved word in play, the end of a block changes nothing (log 5). -/
theorem blockEnd_without {s : State} (h : ∀ e w rest r k, s.spe.channel = .speaking → s.spe.element = some e → e.rest = w :: rest →
    w.res = some r → e.at_ ≠ .block k) : s.blockEnd = s := by
  unfold State.blockEnd
  split
  · rename_i e hc he
    split
    · rename_i k w rest ha hr
      split
      · rename_i r hw
        exact absurd ha (h e w rest r k hc he hr hw)
      · rfl
    · rfl
  · rfl

/-- The end of a block in play. -/
theorem blockEnd_played {s : State} {e : ElementInPlay} {w : SpokenWord} {rest : List SpokenWord} {r : Resolution} {k : Nat}
    (hc : s.spe.channel = .speaking) (he : s.spe.element = some e) (hr : e.rest = w :: rest) (hw : w.res = some r)
    (ha : e.at_ = .block k) : s.blockEnd =
      (if s.sch.safetyCut = true then turnCut (blockOver s r k) else elementAt (blockOver s r k) (afterBlock r k e)).settle := by
  rw [← blockPlayed_eq he]
  unfold State.blockEnd
  simp only [hc, he, ha, hr, hw]

theorem Presents.cutTurn (s : State) : Presents s s.cutTurn := by
  unfold State.cutTurn
  split
  · exact .preemptTurn s _ _
  · exact .refl s

theorem Presents.elementAt (s : State) (e : ElementInPlay) : Presents s (elementAt s e) := .of_spe s _

theorem SpeechAlone.elementAt (s : State) (e : ElementInPlay) : SpeechAlone s (elementAt s e) := .of_element s _

/-- With no piece of a pause in play, the end of a piece changes nothing (log 5). -/
theorem pieceEnd_without {s : State} (h : ∀ e n, s.spe.channel = .speaking → s.spe.element = some e → e.at_ ≠ .pause n) :
    s.pieceEnd = s := by
  unfold State.pieceEnd
  split
  · rename_i e hc he
    split
    · rename_i n ha
      exact absurd ha (h e n hc he)
    · rfl
    · rfl
    · rfl
  · rfl

/-- The end of a piece of a pause: a cut for SAFETY, or what is left of the pause. -/
theorem pieceEnd_played {s : State} {e : ElementInPlay} {n : Nat} (hc : s.spe.channel = .speaking) (he : s.spe.element = some e)
    (ha : e.at_ = .pause n) : s.pieceEnd = (if s.sch.safetyCut = true then turnCut s else elementAt s (afterPiece n e)).settle := by
  rw [turnCut_eq, ← onElement_eq he]
  unfold State.pieceEnd
  simp only [hc, he, ha]

theorem afterPiece_last {n : Nat} (h : n ≤ 15) (e : ElementInPlay) : afterPiece n e = { e with at_ := .word } := if_pos h

theorem afterPiece_more {n : Nat} (h : 15 < n) (e : ElementInPlay) : afterPiece n e = { e with at_ := .pause (n - 15) } :=
  if_neg (Nat.not_le.2 h)

/-- BLOCK_END (R128): what the end of a block in play leaves. -/
theorem blockEnd_leaves {s : State} {e : ElementInPlay} {w : SpokenWord} {rest : List SpokenWord} {r : Resolution} {k : Nat}
    (hc : s.spe.channel = .speaking) (he : s.spe.element = some e) (hr : e.rest = w :: rest) (hw : w.res = some r)
    (ha : e.at_ = .block k) : Presents s s.blockEnd ∧ s.blockEnd.tgn = s.tgn ∧ s.blockEnd.dsp = s.dsp ∧
      (s.sch.safetyCut = false → r.blocks ≤ k + 1 →
        s.blockEnd = (elementAt (blockOver s r k) { wordLeft e with samples := [] }).settle) ∧
      (s.sch.safetyCut = false → k + 1 < r.blocks →
        s.blockEnd = (elementAt (blockOver s r k) { e with at_ := .ready (k + 1), samples := [] }).settle) ∧
      (s.sch.safetyCut = true → s.blockEnd = (turnCut (blockOver s r k)).settle) := by
  rw [blockEnd_played hc he hr hw ha, afterBlock_eq]
  have hp : Presents s (if s.sch.safetyCut = true then turnCut (blockOver s r k) else elementAt (blockOver s r k) (afterBlock r k e)) ∧
      SpeechAlone s (if s.sch.safetyCut = true then turnCut (blockOver s r k) else elementAt (blockOver s r k) (afterBlock r k e)) := by
    split
    · exact ⟨(blockOver_presents s r k).trans (.cutTurn _), (blockOver_speech s r k).trans (.cutTurn _)⟩
    · exact ⟨(blockOver_presents s r k).trans (.elementAt _ _), (blockOver_speech s r k).trans (.elementAt _ _)⟩
  rw [afterBlock_eq] at hp
  have hs := hp.2.trans (.settle _)
  refine ⟨hp.1.trans (.settle _), hs.tgn, hs.dsp, fun h hb => ?_, fun h hb => ?_, fun h => by rw [if_pos h]⟩
  · simp only [h, Bool.false_eq_true, if_false, if_pos hb]
  · simp only [h, Bool.false_eq_true, if_false, if_neg (Nat.not_le.2 hb)]

/-- PAUSE_PIECE_END (R125, R135): what the end of a piece in play leaves. -/
theorem pieceEnd_leaves {s : State} {e : ElementInPlay} {n : Nat} (hc : s.spe.channel = .speaking) (he : s.spe.element = some e)
    (ha : e.at_ = .pause n) : Presents s s.pieceEnd ∧ s.pieceEnd.tgn = s.tgn ∧ s.pieceEnd.dsp = s.dsp ∧
      (s.sch.safetyCut = false → n ≤ 15 → s.pieceEnd = (elementAt s { e with at_ := .word }).settle) ∧
      (s.sch.safetyCut = false → 15 < n → s.pieceEnd = (elementAt s { e with at_ := .pause (n - 15) }).settle) ∧
      (s.sch.safetyCut = true → s.pieceEnd = (turnCut s).settle) := by
  rw [pieceEnd_played hc he ha]
  have hp : Presents s (if s.sch.safetyCut = true then turnCut s else elementAt s (afterPiece n e)) ∧
      SpeechAlone s (if s.sch.safetyCut = true then turnCut s else elementAt s (afterPiece n e)) := by
    split
    · exact ⟨.cutTurn _, .cutTurn _⟩
    · exact ⟨.elementAt _ _, .elementAt _ _⟩
  have hs := hp.2.trans (.settle _)
  refine ⟨hp.1.trans (.settle _), hs.tgn, hs.dsp, fun h hb => ?_, fun h hb => ?_, fun h => by rw [if_pos h]⟩
  · simp only [h, Bool.false_eq_true, if_false, afterPiece_last hb]
  · simp only [h, Bool.false_eq_true, if_false, afterPiece_more hb]

/-! ### Deliveries in vain (R40, R41) -/

/-- What counts as delivered without the channel goes before every other small step. -/
theorem speechStep_inVain {s : State} (h : s.owesInVain = true) :
    s.speechStep = some (s.setPrompts (s.ptb.prompts.map s.relieved)) := by
  unfold State.speechStep
  rw [if_pos h]
  rfl

theorem mute_iff (s : State) (sd : Side) :
    s.mute sd = true ↔ (s.records sd).session.mode = .off ∨ s.spe.channel = .silenced := by
  unfold State.mute State.modeOf
  rw [decide_eq_true_eq]

theorem barred_iff (s : State) (x : Prompt) : s.barred x = true ↔ (s.records x.side).session.mode = .off ∨
    s.spe.channel = .silenced ∨ ((s.records x.side).session.active = false ∧ x.cls ≠ .safety ∧ x.cls ≠ .fault) := by
  unfold State.barred PClass.urgent
  rw [Bool.or_eq_true, mute_iff, or_assoc]
  simp

theorem relieved_speaks {s : State} {x : Prompt} (h : s.speaks x.slot = true) : s.relieved x = x := by
  unfold State.relieved
  rw [if_pos h]

/-- A first delivery that is owed in vain (R40). -/
theorem relieved_first {s : State} {x : Prompt} (h : s.speaks x.slot = false) (ho : owesTurn s x .first) (hb : s.barred x = true) :
    s.relieved x = { deliveredFirst x (stateDelivered x) with state := .granted (stateDelivered x) } := by
  have hf : owesFirst x = true := decide_eq_true ho
  unfold State.relieved
  simp only [h, hf, hb, Bool.false_eq_true, if_false, Bool.and_self, if_true]
  exact spanDelivered_presenting ho.1

/-- A repeat that is owed in vain (R41). -/
theorem relieved_repeat {s : State} {x : Prompt} (h : s.speaks x.slot = false) (hm : s.mute x.side = true)
    (hx : x.state ≠ .granted .presenting) (hr : repeatInVain x = true) : s.relieved x = repeatMade x := by
  have hf : owesFirst x = false := decide_eq_false fun z => hx z.1
  unfold State.relieved
  simp only [h, hf, hm, hr, Bool.false_eq_true, if_false, Bool.false_and, Bool.and_self, if_true]

theorem relieved_started {s : State} {x : Prompt} (h : s.speaks x.slot = false) (hm : s.mute x.side = true)
    (hx : x.state = .granted .awaiting ∨ x.state = .held .awaiting) (hr : x.repeatStarted = true) :
    s.relieved x = deliveredAgain x := by
  have hv : repeatInVain x = true := by
    unfold repeatInVain owesRepeat
    rcases hx with hx | hx <;> simp [hx, hr]
  rw [relieved_repeat h hm (by rcases hx with hx | hx <;> rw [hx] <;> decide) hv]
  unfold repeatMade
  rw [if_pos hr, repeatDelivered_eq]

theorem relieved_due {s : State} {x : Prompt} (h : s.speaks x.slot = false) (hm : s.mute x.side = true)
    (hx : x.state = .granted .awaiting) (hr : x.repeatStarted = false) (hd : x.repeatDue = true) :
    s.relieved x = deliveredAgain { x with repeatsLeft := x.repeatsLeft - 1 } := by
  have hv : repeatInVain x = true := by
    unfold repeatInVain owesRepeat
    simp [hx, hd]
  rw [relieved_repeat h hm (by rw [hx]; decide) hv]
  unfold repeatMade
  rw [hr, repeatDelivered_eq]
  rfl

/-! ### Blocks begin (R111, R112, R127 to R129) -/

section
variable {s : State} {r : Resolution} {n page : Nat}

theorem beginBlock_pinAwaited (hp : s.spe.pin ≠ some page) (hpg : page = (r.first + (n + 1) / 8) % 512) (hw : s.hasPending page = true)
    (f : State) : s.beginBlock r n f = none := by
  subst hpg
  unfold State.beginBlock
  exact (if_pos hp).trans (if_pos hw)

theorem beginBlock_pins (hp : s.spe.pin ≠ some page) (hpg : page = (r.first + (n + 1) / 8) % 512) (hw : s.hasPending page = false)
    (f : State) : s.beginBlock r n f = some { s with spe := { s.spe with pin := some page } } := by
  subst hpg
  unfold State.beginBlock
  exact (if_pos hp).trans (if_neg (Bool.eq_false_iff.1 hw))

theorem beginBlock_pinned (hp : s.spe.pin = some page) (hpg : page = (r.first + (n + 1) / 8) % 512) (f : State) :
    s.beginBlock r n f = match fetchedSlot s.spe.prefetch page ((n + 1) % 8) with
      | none => none
      | some bytes => if blockFaulted bytes then some f else some (s.playBlock n bytes) := by
  subst hpg
  unfold State.beginBlock
  exact if_neg (not_not.2 hp)

theorem beginBlock_unfetched (hp : s.spe.pin = some page) (hpg : page = (r.first + (n + 1) / 8) % 512)
    (hf : fetchedSlot s.spe.prefetch page ((n + 1) % 8) = none) (f : State) : s.beginBlock r n f = none := by
  rw [beginBlock_pinned hp hpg, hf]

theorem beginBlock_faulted {block : List Byte} (hp : s.spe.pin = some page) (hpg : page = (r.first + (n + 1) / 8) % 512)
    (hf : fetchedSlot s.spe.prefetch page ((n + 1) % 8) = some block) (hb : faulted block) (f : State) :
    s.beginBlock r n f = some f := by
  rw [beginBlock_pinned hp hpg, hf]
  exact if_pos ((blockFaulted_iff block).2 hb)

theorem beginBlock_plays {block : List Byte} {e : ElementInPlay} (he : s.spe.element = some e) (hp : s.spe.pin = some page)
    (hpg : page = (r.first + (n + 1) / 8) % 512) (hf : fetchedSlot s.spe.prefetch page ((n + 1) % 8) = some block)
    (hb : ¬ faulted block) (f : State) : s.beginBlock r n f = some (elementAt s { e with
      at_ := .block n, samples := (blockDecoded block).1, sample := (blockDecoded block).2.1, stepIndex := (blockDecoded block).2.2 }) := by
  rw [beginBlock_pinned hp hpg, hf]
  refine (if_neg fun z => hb ((blockFaulted_iff block).1 z)).trans ?_
  unfold State.playBlock
  rw [onElement_eq he]
  rfl

end

/-! ### A prompt's turn (R43 to R46, R121 to R131) -/

theorem sounding_iff (e : ElementInPlay) : e.sounding = true ↔ ∃ n, e.at_ = .block n ∨ e.at_ = .pause n := by
  unfold ElementInPlay.sounding
  cases e.at_ <;> simp

theorem sounding_false {e : ElementInPlay} {n : Nat} (h : e.at_ = .word ∨ e.at_ = .ready n) : e.sounding = false := by
  unfold ElementInPlay.sounding
  rcases h with h | h <;> rw [h]

/-- A step under way for a SAFETY candidate is not noted twice: the note of the cut itself (R45). -/
theorem speechStep_cutNoted {s : State} {x : Prompt} {k : TurnKind} (h : speakingPrompt s x k) (hx : x.cls ≠ .safety)
    (hc : s.sch.safetyCut = false) (hw : safetyWaits s) :
    s.speechStep = some { s with sch := { s.sch with safetyCut := true, preempt := false } } := by
  rw [State.speechStep_speaking h]
  unfold State.promptStep State.notePreemption
  simp only [hx, hc, (State.safetyStands_iff s).2 hw, Bool.false_eq_true, or_self, if_false, if_true]

/-- The note of a preemption at the element's end (R44). -/
theorem speechStep_preemptNoted {s : State} {x : Prompt} {k : TurnKind} (h : speakingPrompt s x k) (hx : x.cls ≠ .safety)
    (hc : s.sch.safetyCut = false) (hw : ¬ safetyWaits s) (hp : s.sch.preempt = false) (hh : higherWaits s x) :
    s.speechStep = some { s with sch := { s.sch with preempt := true } } := by
  have hw' : s.safetyStands = false := Bool.eq_false_iff.2 fun z => hw ((State.safetyStands_iff s).1 z)
  rw [State.speechStep_speaking h]
  unfold State.promptStep State.notePreemption
  simp [hx, hc, hw', hp, (State.higherStands_iff s x).2 hh]

section
variable {s : State} {x : Prompt} {k : TurnKind}

theorem speechStep_cutBefore (h : speakingPrompt s x k) (hp : preemptionNoted s x) (he : s.spe.element = none)
    (hc : s.sch.safetyCut = true) : s.speechStep = some (s.preemptTurn x k) := by
  rw [State.speechStep_speaking h, State.promptStep_noted hp, he]
  exact if_pos hc

theorem speechStep_begins (h : speakingPrompt s x k) (hp : preemptionNoted s x) (he : s.spe.element = none)
    (hc : s.sch.safetyCut = false) {e : SpanElem} (hs : x.span[x.elemIndex]? = some e) : s.speechStep = some (elementBegun s x e) := by
  rw [State.speechStep_speaking h, State.promptStep_noted hp, he, elementBegun_eq]
  simp only [hc, hs, Bool.false_eq_true, if_false]

theorem speechStep_emptySpan (h : speakingPrompt s x k) (hp : preemptionNoted s x) (he : s.spe.element = none)
    (hc : s.sch.safetyCut = false) (hs : x.span[x.elemIndex]? = none) : s.speechStep = some (turnEnded (spanOver s x k) x) := by
  rw [State.speechStep_speaking h, State.promptStep_noted hp, he, turnEnded_spanOver]
  simp only [hc, hs, Bool.false_eq_true, if_false]

theorem speechStep_cut (h : speakingPrompt s x k) (hp : preemptionNoted s x) {e : ElementInPlay} (he : s.spe.element = some e) {n : Nat}
    (ha : e.at_ = .word ∨ e.at_ = .ready n) (hc : s.sch.safetyCut = true) : s.speechStep = some (s.preemptTurn x k) := by
  rw [State.speechStep_speaking h, State.promptStep_noted hp, he]
  simp only [hc, sounding_false ha, Bool.not_false, and_self, if_true]

/-- A block or a piece of a pause in play is waited for. -/
theorem speechStep_sounding (h : speakingPrompt s x k) (hp : preemptionNoted s x) {e : ElementInPlay} (he : s.spe.element = some e)
    {n : Nat} (ha : e.at_ = .block n ∨ e.at_ = .pause n) : s.speechStep = none := by
  rw [State.speechStep_speaking h, State.promptStep_noted hp, he]
  simp only [(sounding_iff e).2 ⟨n, ha⟩, Bool.not_true, Bool.false_eq_true, and_false, if_false]
  unfold State.promptElement
  rcases ha with ha | ha <;> rw [ha]

/-- Without a cut, the element's own small step follows. -/
theorem speechStep_uncut (h : speakingPrompt s x k) (hp : preemptionNoted s x) {e : ElementInPlay} (he : s.spe.element = some e)
    (hc : s.sch.safetyCut = false) : s.speechStep = s.promptElement x k e := by
  rw [State.speechStep_speaking h, State.promptStep_noted hp, he]
  simp only [hc, Bool.false_eq_true, false_and, if_false]

theorem speechStep_elementEnds (h : speakingPrompt s x k) (hp : preemptionNoted s x) {e : ElementInPlay} (he : s.spe.element = some e)
    (hc : s.sch.safetyCut = false) {n : Nat} (ha : e.at_ = .word ∨ e.at_ = .ready n) (hr : e.rest = []) :
    s.speechStep = some (s.elementEnded x k) := by
  rw [speechStep_uncut h hp he hc]
  unfold State.promptElement
  rcases ha with ha | ha <;> rw [ha, hr]

end

/-- The note of a preemption goes with the turn that ends. -/
theorem deliverTurn_unnoted (s : State) (x : Prompt) (k : TurnKind) :
    ({ s with sch := { s.sch with preempt := false } } : State).deliverTurn x k = s.deliverTurn x k := by
  unfold State.deliverTurn State.endTurn State.clearTurn State.unpin
  cases k <;> simp only [State.spanDone, State.onPrompt, State.setPrompts, State.onSchedule] <;> split <;> rfl

section
variable {s : State} {x : Prompt} {k : TurnKind}

theorem elementEnded_lost (h : s.sch.ending = some .lost) : s.elementEnded x k = turnEnded (replayLeft s x k) x := by
  rw [turnEnded_replayLeft]
  unfold State.elementEnded
  rw [h]

theorem elementEnded_delivered (h : s.sch.ending = some .delivered) : s.elementEnded x k = turnEnded (spanOver s x k) x := by
  rw [turnEnded_spanOver]
  unfold State.elementEnded
  rw [h]

theorem elementEnded_preempted (h : s.sch.ending = none) (hp : s.sch.preempt = true) (hh : higherWaits s x) :
    s.elementEnded x k = s.preemptTurn x k := by
  unfold State.elementEnded
  rw [h]
  exact if_pos ⟨hp, (State.higherStands_iff s x).2 hh⟩

theorem elementEnded_stays (h : s.sch.ending = none) (hp : s.sch.preempt = false ∨ ¬ higherWaits s x) : s.elementEnded x k =
    if x.elemIndex + 1 < x.span.length then { s.onPrompt x.slot fun y => { y with elemIndex := y.elemIndex + 1 } with
      sch := { s.sch with preempt := false }, spe := { s.spe with element := none } }
    else s.deliverTurn x k := by
  have hn : ¬ (s.sch.preempt = true ∧ s.higherStands x = true) := by
    rintro ⟨a, b⟩
    rcases hp with hp | hp
    · rw [hp] at a; cases a
    · exact hp ((State.higherStands_iff s x).1 b)
  unfold State.elementEnded
  rw [h, ← deliverTurn_unnoted]
  exact if_neg hn

theorem elementEnded_goes_on (hd : slotsDistinct s) (hx : s.prompt x.slot = some x) (h : s.sch.ending = none)
    (hp : s.sch.preempt = false ∨ ¬ higherWaits s x) (hl : x.elemIndex + 1 < x.span.length) : s.elementEnded x k =
      { s.onPrompt x.slot fun y => { y with elemIndex := x.elemIndex + 1 } with
        sch := { s.sch with preempt := false }, spe := { s.spe with element := none } } := by
  rw [elementEnded_stays h hp, if_pos hl, State.onPrompt_congr (f := fun y => { y with elemIndex := y.elemIndex + 1 })
    (g := fun y => { y with elemIndex := x.elemIndex + 1 }) hd hx rfl]

theorem elementEnded_last (h : s.sch.ending = none) (hp : s.sch.preempt = false ∨ ¬ higherWaits s x)
    (hl : x.span.length ≤ x.elemIndex + 1) : s.elementEnded x k = turnEnded (spanOver s x k) x := by
  rw [elementEnded_stays h hp, if_neg (Nat.not_lt.2 hl), turnEnded_spanOver]

/-! ### The words of an element (R121 to R131) -/

variable {e : ElementInPlay} {w : SpokenWord} {rest : List SpokenWord}

/-- A missing word is left with PHRASE_FAULT (R122). -/
theorem promptElement_missing (he : s.spe.element = some e) (hr : e.rest = w :: rest) (ha : e.at_ = .word) (hw : w.res = none) :
    s.promptElement x k e = some (elementAt
      (s.offer x.owner ⟨.phraseFault, some x.side, some x.tag, 1, BitVec.ofNat 16 w.phrase, false⟩) (wordLeft e)) := by
  have ho : ∀ p n, (s.offer p n).spe.element = some e := fun p n => by rw [element_offer]; exact he
  unfold State.promptElement
  simp only [ha, hr, hw]
  rw [onElement_eq (ho _ _)]
  rfl

theorem promptElement_word {r : Resolution} (he : s.spe.element = some e) (hr : e.rest = w :: rest) (ha : e.at_ = .word)
    (hw : w.res = some r) :
    s.promptElement x k e = some (elementAt s (if r.blocks = 0 then wordLeft e else { e with at_ := .ready 0 })) := by
  refine Eq.trans ?_ (congrArg some (onElement_eq he fun e => if r.blocks = 0 then wordLeft e else { e with at_ := .ready 0 }))
  unfold State.promptElement
  simp only [ha, hr, hw]
  rfl

theorem promptElement_ready {r : Resolution} {n : Nat} (hr : e.rest = w :: rest) (ha : e.at_ = .ready n) (hw : w.res = some r) :
    s.promptElement x k e = s.beginBlock r n (s.faultedPhrase x k w.phrase) := by
  unfold State.promptElement
  simp only [ha, hr, hw]

/-- The state after a faulted block's pin and PHRASE_FAULT (R129). -/
theorem faultedPhrase_before (s : State) (x : Prompt) (n : Nat) :
    ((unpinned s).offer x.owner ⟨.phraseFault, some x.side, some x.tag, 2, BitVec.ofNat 16 n, false⟩).spe.element = s.spe.element ∧
    ((unpinned s).offer x.owner ⟨.phraseFault, some x.side, some x.tag, 2, BitVec.ofNat 16 n, false⟩).spe.resets = s.spe.resets := by
  rw [element_offer, unpinned_eq]
  exact ⟨element_unpin s, resets_unpin s⟩

variable {u : State} {n : Nat}

/-- In service mode a faulted block does not count (R134). -/
theorem faultedPhrase_service (he : s.spe.element = some e) (hf : s.stu.flag = true)
    (hu : u = (unpinned s).offer x.owner ⟨.phraseFault, some x.side, some x.tag, 2, BitVec.ofNat 16 n, false⟩) :
    s.faultedPhrase x k n = elementAt u (wordLeft e) := by
  subst hu
  obtain ⟨hel, -⟩ := faultedPhrase_before s x n
  refine Eq.trans ?_ (onElement_eq (hel.trans he) nextWord)
  unfold State.faultedPhrase
  rw [unpinned_eq]
  exact if_pos hf

/-- A faulted block short of the third in a row counts (R130). -/
theorem faultedPhrase_counts (he : s.spe.element = some e) (hf : s.stu.flag = false) (hl : s.spe.faults < 2)
    (hu : u = (unpinned s).offer x.owner ⟨.phraseFault, some x.side, some x.tag, 2, BitVec.ofNat 16 n, false⟩) :
    s.faultedPhrase x k n = elementAt { u with spe := { u.spe with faults := s.spe.faults + 1 } } (wordLeft e) := by
  obtain ⟨hel, -⟩ := faultedPhrase_before s x n
  rw [← hu] at hel
  have hel' : ({ u with spe := { u.spe with faults := s.spe.faults + 1 } } : State).spe.element = some e := hel.trans he
  refine Eq.trans ?_ (onElement_eq hel' nextWord)
  subst hu
  have hl' : ¬ 3 ≤ s.spe.faults + 1 := by omega
  unfold State.faultedPhrase
  rw [unpinned_eq]
  exact (if_neg (Bool.eq_false_iff.1 hf)).trans (if_neg hl')

/-- The third faulted block in a row is a self-reset (R51, R131). -/
theorem faultedPhrase_resets (hf : s.stu.flag = false) (hl : 2 ≤ s.spe.faults)
    (hu : u = (unpinned s).offer x.owner ⟨.phraseFault, some x.side, some x.tag, 2, BitVec.ofNat 16 n, false⟩) :
    s.faultedPhrase x k n = { turnEnded (spanOver u x k) x with
      spe := ⟨.recovering, none, some 0, 0, min 255 (s.spe.resets + 1), [], none⟩ } := by
  obtain ⟨-, hres⟩ := faultedPhrase_before s x n
  rw [← hu] at hres
  rw [← hres, ← State.selfReset_eq]
  subst hu
  have hl' : 3 ≤ s.spe.faults + 1 := by omega
  unfold State.faultedPhrase
  rw [unpinned_eq]
  exact (if_neg (Bool.eq_false_iff.1 hf)).trans (if_pos hl')

end

/-! ### An audition's turn (R49, R141, R180) -/

theorem auditionOver_eq (s : State) (v : Verdict) : auditionOver s v = s.endAudition v := by
  unfold auditionOver State.endAudition
  rw [turnOver_idle_eq]
  rfl

theorem auditionBegun_eq (s : State) (a : Audition) : auditionBegun s a = s.startAudition a := by
  unfold auditionBegun State.startAudition State.playElement keptCopies
  simp only
  congr 2
  · congr 1
    funext c
    congr 1
    funext y
    cases y.res <;> rfl

section
variable {s : State} {a : Audition}

theorem speechStep_audition (h : auditionSpeaks s a) : s.speechStep = s.auditionStep := by
  obtain ⟨hc, ht, -, hv⟩ := h
  unfold State.speechStep
  simp only [hc, ht, hv, Bool.false_eq_true, if_false]

theorem speechStep_auditionBegins (h : auditionSpeaks s a) (he : s.spe.element = none) : s.speechStep = some (auditionBegun s a) := by
  rw [speechStep_audition h, auditionBegun_eq]
  unfold State.auditionStep
  rw [h.2.2.1, he]

theorem speechStep_auditionElement (h : auditionSpeaks s a) {e : ElementInPlay} (he : s.spe.element = some e) :
    s.speechStep = s.auditionElement e := by
  rw [speechStep_audition h]
  unfold State.auditionStep
  rw [h.2.2.1, he]

variable {e : ElementInPlay} {w : SpokenWord} {rest : List SpokenWord}

theorem auditionElement_sounding {n : Nat} (ha : e.at_ = .block n ∨ e.at_ = .pause n) : s.auditionElement e = none := by
  unfold State.auditionElement
  rcases ha with ha | ha <;> rw [ha]

theorem auditionElement_ends {n : Nat} (ha : e.at_ = .word ∨ e.at_ = .ready n) (hr : e.rest = []) :
    s.auditionElement e = some (auditionOver s .pass) := by
  rw [auditionOver_eq]
  unfold State.auditionElement
  rcases ha with ha | ha <;> rw [ha, hr]

theorem auditionElement_missing (hr : e.rest = w :: rest) (ha : e.at_ = .word) (hw : w.res = none) :
    s.auditionElement e = some (auditionOver (auditionFaulted s 1 w.phrase) .fail) := by
  rw [auditionOver_eq]
  unfold State.auditionElement
  simp only [ha, hr, hw]
  rfl

theorem auditionElement_word {r : Resolution} (he : s.spe.element = some e) (hr : e.rest = w :: rest) (ha : e.at_ = .word)
    (hw : w.res = some r) :
    s.auditionElement e = some (elementAt s (if r.blocks = 0 then wordLeft e else { e with at_ := .ready 0 })) := by
  refine Eq.trans ?_ (congrArg some (onElement_eq he fun e => if r.blocks = 0 then wordLeft e else { e with at_ := .ready 0 }))
  unfold State.auditionElement
  simp only [ha, hr, hw]
  rfl

theorem auditionElement_ready {r : Resolution} {n : Nat} (hr : e.rest = w :: rest) (ha : e.at_ = .ready n) (hw : w.res = some r) :
    s.auditionElement e = s.beginBlock r n (auditionOver (auditionFaulted s 2 w.phrase) .fail) := by
  rw [auditionOver_eq]
  unfold State.auditionElement
  simp only [ha, hr, hw]
  rfl

end

/-! ### The decoder (R128) -/

/-- The step index after a code, by the ranges of its magnitude. -/
theorem nextStepIndex_of {i c j : Nat} (h0 : c % 8 ≤ 2 → j = i - 1) (h3 : c % 8 = 3 ∨ c % 8 = 4 → j = i)
    (h5 : c % 8 = 5 → j = min 63 (i + 2)) (h6 : c % 8 = 6 → j = min 63 (i + 3)) (h7 : c % 8 = 7 → j = min 63 (i + 5)) :
    nextStepIndex i (c % 8) = j := by
  unfold nextStepIndex
  split
  · exact (h0 ‹_›).symm
  · split
    · exact (h3 (by omega)).symm
    · split
      · exact (h5 ‹_›).symm
      · split
        · exact (h6 ‹_›).symm
        · exact (h7 (by omega)).symm

/-- One code decoded, and then the rest. -/
theorem decodeCodes_cons {x y d : Int} {i j c : Nat} (rest : List Nat)
    (hd : d = ((12 * 112 ^ i / 100 ^ i) * (2 * (c % 8) + 1) / 8 : Nat))
    (hy : y = max (-32767) (min 32767 (if 8 ≤ c then x - d else x + d))) (hj : nextStepIndex i (c % 8) = j) :
    decodeCodes x i (c :: rest) = (y :: (decodeCodes y j rest).1, (decodeCodes y j rest).2) := by
  subst hd hy hj
  rfl

/-! ### The statement -/

/-- Settles O54: each clause is the law of its small step. -/
theorem speechGoesOn : Obligations.SpeechGoesOn := by
  refine ⟨fun s => ⟨?_, ?_, ?_, ?_⟩, fun s => ⟨rfl, State.settle_of_none, fun n t h => State.settleSteps_succ n h⟩,
    fun s h => speechStep_inVain h, fun s x => ⟨relieved_speaks, fun h => ⟨fun ho hb => ?_, fun hm => ⟨?_, ?_⟩⟩⟩,
    fun s x k h hd => ⟨?_, ?_, fun hp => ⟨?_, ?_, ?_, fun e he => ⟨?_, ?_, ?_, ?_⟩⟩⟩, State.preemptTurn_eq,
    fun s => ⟨rfl, State.grantTop_eq⟩, fun x i c rest => ⟨rfl, ?_⟩, fun s a h => ⟨speechStep_auditionBegins h, fun e he => ?_⟩⟩
  · exact fun h => by rw [exec_blockEnd, blockEnd_without h]
  · exact fun e w rest r k hc he hr hw ha => ⟨_, exec_blockEnd s, blockEnd_leaves hc he hr hw ha⟩
  · exact fun h => by rw [exec_pausePieceEnd, pieceEnd_without h]
  · intro e n hc he ha
    obtain ⟨hp, ht, hd, hw, hm, hcut⟩ := pieceEnd_leaves hc he ha
    exact ⟨_, exec_pausePieceEnd s, hp, ht, hd, hw, hm, hcut, fun hn hs hstep => (hm hs hn).trans (State.settle_of_none hstep)⟩
  · exact relieved_first h ho ((barred_iff s x).2 hb)
  · exact relieved_started h ((mute_iff s x.side).2 hm)
  · exact relieved_due h ((mute_iff s x.side).2 hm)
  · exact speechStep_cutNoted h
  · exact speechStep_preemptNoted h
  · exact speechStep_cutBefore h hp
  · exact fun he hc e => speechStep_begins h hp he hc
  · exact speechStep_emptySpan h hp
  · exact fun n => speechStep_sounding h hp he
  · exact fun n => speechStep_cut h hp he
  · intro n ha hc hr
    rw [speechStep_elementEnds h hp he hc ha hr]
    refine ⟨fun hl => by rw [elementEnded_lost hl], fun hn hpre hh => by rw [elementEnded_preempted hn hpre hh],
      fun hn hpre hl => by rw [elementEnded_goes_on hd h.2.2.1 hn hpre hl], ?_⟩
    rintro (hdel | ⟨hn, hpre, hl⟩)
    · rw [elementEnded_delivered hdel]
    · rw [elementEnded_last hn hpre hl]
  · intro w rest hr hc
    rw [speechStep_uncut h hp he hc]
    refine ⟨promptElement_missing he hr, fun r hw => ⟨fun ha hb => ?_, fun ha hb => ?_, fun n page ha hpg => ?_⟩⟩
    · rw [promptElement_word he hr ha hw, if_pos hb]
    · rw [promptElement_word he hr ha hw, if_neg hb]
    · rw [promptElement_ready hr ha hw]
      refine ⟨fun hpin hw => beginBlock_pinAwaited hpin hpg hw _, fun hpin hw => beginBlock_pins hpin hpg hw _,
        fun hpin hf => beginBlock_unfetched hpin hpg hf _, fun block hpin hf => ⟨fun hb => beginBlock_plays he hpin hpg hf hb _,
          fun u hb hu => ?_⟩⟩
      rw [beginBlock_faulted hpin hpg hf hb]
      exact ⟨fun hs => by rw [faultedPhrase_service he hs hu], fun hs hl => by rw [faultedPhrase_counts he hs hl hu],
        fun hs hl => by rw [faultedPhrase_resets hs hl hu]⟩
  · exact fun y d j hdelta hy h0 h3 h5 h6 h7 => decodeCodes_cons rest hdelta hy (nextStepIndex_of h0 h3 h5 h6 h7)
  · rw [speechStep_auditionElement h he]
    refine ⟨fun n => auditionElement_sounding, fun n => auditionElement_ends, fun w rest hr => ⟨auditionElement_missing hr,
      fun r hw => ⟨fun ha hb => ?_, fun ha hb => ?_, fun n page ha hpg => ?_⟩⟩⟩
    · rw [auditionElement_word he hr ha hw, if_pos hb]
    · rw [auditionElement_word he hr ha hw, if_neg hb]
    · rw [auditionElement_ready hr ha hw]
      exact ⟨fun hpin hw => beginBlock_pinAwaited hpin hpg hw _, fun hpin hw => beginBlock_pins hpin hpg hw _,
        fun hpin hf => beginBlock_unfetched hpin hpg hf _, fun block hpin hf => ⟨fun hb => beginBlock_plays he hpin hpg hf hb _,
          fun hb => beginBlock_faulted hpin hpg hf hb _⟩⟩

end Sys2Proof.Machine
end

section
/-! SET CONFIG, with the house values on ASLEEP sides, and READ CONFIG (O41). -/

namespace Sys2Proof.Machine

open Sys2Proof.Claims

/-! ### The items of a configuration record (R174, R175) -/

theorem fourOf_isSome_iff (b : Byte) : (∃ l, fourOf b = some l) ↔ b.toNat ≤ 3 := by
  have h := not_congr (fourOf_eq_none_iff b)
  rw [← Option.isSome_iff_exists, Option.isSome_iff_ne_none]
  exact h.trans Nat.not_lt

theorem val_of_fourOf {b : Byte} {l : Fin 4} (h : fourOf b = some l) : l.val = b.toNat := by
  unfold fourOf at h
  split at h
  · cases h; rfl
  · cases h

theorem modeCode_of_speechModeOf {b : Byte} {m : SpeechMode} (h : speechModeOf b = some m) : modeCode m = b := by
  unfold speechModeOf at h
  split at h
  · cases h; exact Eq.symm ‹_›
  · split at h
    · cases h; exact Eq.symm ‹_›
    · split at h
      · cases h; exact Eq.symm ‹_›
      · cases h

theorem speechModeOf_isSome_iff (b : Byte) : (∃ m, speechModeOf b = some m) ↔ b.toNat ≤ 2 := by
  constructor
  · rintro ⟨m, hm⟩
    rw [← modeCode_of_speechModeOf hm]
    cases m <;> decide
  · intro h
    have hb : b = 0 ∨ b = 1 ∨ b = 2 := by bv_omega
    rcases hb with rfl | rfl | rfl
    · exact ⟨.on, rfl⟩
    · exact ⟨.assist, rfl⟩
    · exact ⟨.off, rfl⟩

theorem boolCode_of_boolOf {b : Byte} {v : Bool} (h : boolOf b = some v) : boolCode v = b := by
  unfold boolOf at h
  split at h
  · cases h; exact Eq.symm ‹_›
  · split at h
    · cases h; exact Eq.symm ‹_›
    · cases h

theorem boolOf_isSome_iff (b : Byte) : (∃ v, boolOf b = some v) ↔ b.toNat ≤ 1 := by
  constructor
  · rintro ⟨v, hv⟩
    rw [← boolCode_of_boolOf hv]
    cases v <;> decide
  · intro h
    have hb : b = 0 ∨ b = 1 := by bv_omega
    rcases hb with rfl | rfl
    · exact ⟨false, rfl⟩
    · exact ⟨true, rfl⟩

theorem configNumbersOk_iff (b : ConfigBody) : configNumbersOk b = true ↔
    (b.level0.toNat ≤ 31 ∧ b.level1.toNat ≤ 31 ∧ b.level2.toNat ≤ 31 ∧ b.level3.toNat ≤ 31) ∧
    (20 ≤ b.idle.toNat ∧ b.idle.toNat ≤ 900) ∧ (10 ≤ b.lapse.toNat ∧ b.lapse.toNat ≤ 600) ∧
    (10 ≤ b.panelOff.toNat ∧ b.panelOff.toNat ≤ 600) ∧
    (∀ n ∈ [b.quotaLower, b.quotaUpper, b.quotaPayment, b.quotaRoom], 2 ≤ n.toNat ∧ n.toNat ≤ 32) ∧
    b.quotaLower.toNat + b.quotaUpper.toNat + b.quotaPayment.toNat + b.quotaRoom.toNat ≤ 48 := by
  have hl : ([b.level0, b.level1, b.level2, b.level3].all fun l => decide (l.toNat ≤ Config.muteSteps)) = true ↔
      b.level0.toNat ≤ 31 ∧ b.level1.toNat ≤ 31 ∧ b.level2.toNat ≤ 31 ∧ b.level3.toNat ≤ 31 := by
    simp only [List.all_cons, List.all_nil, Bool.and_true, Bool.and_eq_true, decide_eq_true_eq]
    rfl
  unfold configNumbersOk
  simp only [Bool.and_eq_true, hl, List.all_eq_true, inRange, decide_eq_true_eq, and_assoc]
  rfl

/-- The configuration record of a body whose code fields are read (R175). -/
def configRead (b : ConfigBody) (l : Fin 4) (m : SpeechMode) (v : Fin 4) (lock fair : Bool) : Configuration :=
  { language := l, mode := m, volume := v
    levels := ⟨b.level0.toNat, b.level1.toNat, b.level2.toNat, b.level3.toNat⟩
    idleTimeout := b.idle.toNat, holdLapse := b.lapse.toNat, panelOff := b.panelOff.toNat
    quotaLower := b.quotaLower.toNat, quotaUpper := b.quotaUpper.toNat, quotaPayment := b.quotaPayment.toNat
    quotaRoom := b.quotaRoom.toNat, lockOnFault := lock, fairTurn := fair }

/-- A body is taken where its code fields are codes and its numbers in range. -/
theorem configOf_eq_some_iff (b : ConfigBody) (c : Configuration) : configOf b = some c ↔
    configNumbersOk b = true ∧ ∃ l m v lock fair, fourOf b.language = some l ∧ speechModeOf b.mode = some m ∧
      fourOf b.volume = some v ∧ boolOf b.lockOnFault = some lock ∧ boolOf b.fairTurn = some fair ∧ c = configRead b l m v lock fair := by
  unfold configOf
  constructor
  · intro h
    split at h
    · rename_i l m v lock fair hl hm hv hk hf
      split at h
      · cases h
        exact ⟨‹_›, l, m, v, lock, fair, hl, hm, hv, hk, hf, rfl⟩
      · cases h
    · cases h
  · rintro ⟨hn, l, m, v, lock, fair, hl, hm, hv, hk, hf, rfl⟩
    simp only [hl, hm, hv, hk, hf, if_pos hn]
    rfl

/-- A body with an item out of range is not taken (R175). -/
theorem configOf_outOfRange {b : ConfigBody} (h : ¬ configInRange b) : configOf b = none := by
  refine Option.eq_none_iff_forall_ne_some.2 fun c hc => h ?_
  obtain ⟨hn, l, m, v, lock, fair, hl, hm, hv, hk, hf, -⟩ := (configOf_eq_some_iff b c).1 hc
  obtain ⟨h1, h2, h3, h4, h5, h6⟩ := (configNumbersOk_iff b).1 hn
  exact ⟨⟨(fourOf_isSome_iff _).1 ⟨l, hl⟩, (speechModeOf_isSome_iff _).1 ⟨m, hm⟩, (fourOf_isSome_iff _).1 ⟨v, hv⟩⟩, h1, h2, h3, h4, h5,
    h6, (boolOf_isSome_iff _).1 ⟨lock, hk⟩, (boolOf_isSome_iff _).1 ⟨fair, hf⟩⟩

/-- A body in range is taken as it stands (R175). -/
theorem configOf_inRange {b : ConfigBody} (h : configInRange b) : ∃ c, configOf b = some c ∧ configHolds c b := by
  obtain ⟨⟨hl, hm, hv⟩, h1, h2, h3, h4, h5, h6, hk, hf⟩ := h
  obtain ⟨l, hl⟩ := (fourOf_isSome_iff _).2 hl
  obtain ⟨m, hm⟩ := (speechModeOf_isSome_iff _).2 hm
  obtain ⟨v, hv⟩ := (fourOf_isSome_iff _).2 hv
  obtain ⟨lock, hk⟩ := (boolOf_isSome_iff _).2 hk
  obtain ⟨fair, hf⟩ := (boolOf_isSome_iff _).2 hf
  exact ⟨configRead b l m v lock fair, (configOf_eq_some_iff b _).2
      ⟨(configNumbersOk_iff b).2 ⟨h1, h2, h3, h4, h5, h6⟩, l, m, v, lock, fair, hl, hm, hv, hk, hf, rfl⟩,
    val_of_fourOf hl, modeCode_of_speechModeOf hm, val_of_fourOf hv, rfl, rfl, rfl, rfl, rfl, rfl, rfl, rfl,
    boolCode_of_boolOf hk, boolCode_of_boolOf hf⟩

/-! ### The house values (R53) -/

/-- A side's records with the house values where the side is ASLEEP. -/
def housed (c : Configuration) (r : SideRecords) : SideRecords :=
  if r.session.active then r
  else { r with session := { r.session with language := c.language, mode := c.mode, volume := c.volume } }

/-- A configured part is one side housed after the other. -/
theorem configured_eq (s : State) (c : Configuration) :
    configured s c = { s with cfg := c, scu := (s.scu.update .lower (housed c)).update .upper (housed c) } := rfl

/-- The same change of the sides' records keeps presentation presentation. -/
theorem Presents.withScu {s t : State} (h : Presents s t) (f : PerSide SideRecords → PerSide SideRecords) :
    Presents { s with scu := f s.scu } { t with scu := f t.scu } := { h with scu := congrArg f h.scu }

/-- Beside the house values themselves, what they bring on a side is presentation. -/
theorem applyHouse_presents {s : State} {c : Configuration} (hc : s.cfg = c) (sd : Side) :
    Presents { s with scu := s.scu.update sd (housed c) } (s.applyHouse sd) := by
  subst hc
  have hg : s.scu.get sd = s.records sd := rfl
  unfold State.applyHouse
  dsimp only
  split
  · rename_i ha
    rw [PerSide.update_id s.scu sd (by unfold housed; rw [hg, if_pos ha])]
    exact .refl s
  · rename_i ha
    have hu : ({ s with scu := s.scu.update sd (housed s.cfg) } : State) = s.onSession sd (houseSession s.cfg) := by
      unfold State.onSession
      rw [PerSide.update_congr s.scu sd (g := fun r => { r with session := houseSession s.cfg r.session })]
      unfold housed
      rw [hg, if_neg ha]
      rfl
    have hl : Presents (s.onSession sd (houseSession s.cfg))
        (if s.cfg.language ≠ (s.records sd).session.language then (s.onSession sd (houseSession s.cfg)).languageChanged sd
          else s.onSession sd (houseSession s.cfg)) := by
      split
      · exact .languageChanged _ sd
      · exact .refl _
    rw [hu]
    split
    · exact hl.trans (.softMode _ sd _)
    · exact hl

/-- The house values taken by both sides are those of the configured part, but for presentation. -/
theorem houses_present (s : State) (c : Configuration) :
    Presents (configured s c) ((({ s with cfg := c } : State).applyHouse .lower).applyHouse .upper) := by
  have h1 : Presents _ (({ s with cfg := c } : State).applyHouse .lower) := applyHouse_presents rfl .lower
  rw [configured_eq]
  exact (h1.withScu fun x => x.update .upper (housed c)).trans (applyHouse_presents h1.cfg .upper)

/-! ### The requests (R175, R176) -/

/-- A configuration record put in place, before another fair turn setting is acted upon. -/
def houseSettled (s : State) (c : Configuration) : State := ((({ s with cfg := c } : State).applyHouse .lower).applyHouse .upper).settle

theorem houseSettled_presents (s : State) (c : Configuration) : Presents (configured s c) (houseSettled s c) :=
  (houses_present s c).trans (.settle _)

theorem houseSettled_eq (s : State) (c : Configuration) :
    houseSettled s c = (houseTaken (houseTaken { s with cfg := c } .lower) .upper).settle := by
  rw [houseTaken_eq, houseTaken_eq]
  rfl

theorem putConfig_eq (s : State) (c : Configuration) : s.putConfig c =
    if c.fairTurn = s.cfg.fairTurn then houseSettled s c else (houseSettled s c).fairTurnChanged := rfl

theorem putConfig_presents (s : State) (c : Configuration) : Presents (configured s c) (s.putConfig c) := by
  rw [putConfig_eq]
  split
  · exact houseSettled_presents s c
  · exact (houseSettled_presents s c).trans (.fairTurnChanged _)

theorem exec_setConfig (s : State) (p : Port) (q : Byte) (b : ConfigBody) :
    exec (.setConfig p q b) s = .next (s.requestArrives p q (.setConfig b)) := rfl

theorem exec_readConfig (s : State) (p : Port) (q : Byte) : exec (.readConfig p q) s = .next (s.requestArrives p q .readConfig) := rfl

theorem setConfig_badField (s : State) {b : ConfigBody} (h : ¬ configInRange b) : s.setConfig b = (.answer .badField [], s) := by
  unfold State.setConfig
  rw [configOf_outOfRange h]

theorem setConfig_ok {s : State} {p : Port} {b : ConfigBody} {c : Configuration} (q : Byte) (h : ready s p 0x40)
    (hc : configOf b = some c) :
    s.requestArrives p q (.setConfig b) = repliedWork ((receiving s p .hunt).putConfig c) p 0x40 q .ok [] := by
  refine requestArrives_ready (r := .setConfig b) q h rfl ?_ (putConfig_presents _ c).lnk
  show (receiving s p .hunt).setConfig b = _
  unfold State.setConfig
  rw [hc]

/-- Settles O41: a body is taken exactly where it is in range, and then the house values act before the regions are chosen again. -/
theorem configSetAndRead : Obligations.ConfigSetAndRead := by
  refine ⟨fun s p q b h => ⟨fun hb => ?_, fun hb => ?_⟩, fun s p q h => ?_⟩
  · rw [exec_setConfig, requestArrives_unchanged (r := .setConfig b) q h rfl (setConfig_badField _ hb)]
    rfl
  · obtain ⟨c, hc, hh⟩ := configOf_inRange hb
    refine ⟨c, _, hh, (exec_setConfig s p q b).trans (congrArg _ (setConfig_ok q h hc)), ?_, houseSettled (receiving s p .hunt) c,
      houseSettled_presents _ c, houseSettled_eq _ c, fun hf => ?_, fun hf => ?_⟩
    · rw [answered_eq]
      exact (putConfig_presents (receiving s p .hunt) c).repliedWork ..
    · rw [putConfig_eq, if_pos (show c.fairTurn = (receiving s p .hunt).cfg.fairTurn from hf)]
    · rw [putConfig_eq, if_neg (show c.fairTurn ≠ (receiving s p .hunt).cfg.fairTurn from hf)]
      rfl
  · rw [exec_readConfig, requestArrives_unchanged (r := .readConfig) q h rfl rfl]
    rfl

end Sys2Proof.Machine
end

section
/-! Grants and displacements of single prompts, and what they leave of the table (R15, R19). -/

namespace Sys2Proof.Machine

open Sys2Proof.Claims

/-! ### Fields of a prompt as posted -/

theorem slot_of_posted {x y : Prompt} (h : y.posted = x.posted) : y.slot = x.slot :=
  (congrArg Prompt.slot h : y.posted.slot = x.posted.slot)

theorem page_of_posted {x y : Prompt} (h : y.posted = x.posted) : y.page = x.page :=
  (congrArg Prompt.page h : y.posted.page = x.posted.page)

theorem side_of_posted {x y : Prompt} (h : y.posted = x.posted) : y.side = x.side :=
  (congrArg Prompt.side h : y.posted.side = x.posted.side)

/-- Eligibility is of the side's holder and of what the prompt was posted with (R32). -/
theorem mayPresent_congr {s t : State} (hs : t.scu = s.scu) {x y : Prompt} (h : y.posted = x.posted) : mayPresent t y ↔ mayPresent s x := by
  have ho : y.owner = x.owner := (congrArg Prompt.owner h : y.posted.owner = x.posted.owner)
  have hc : y.cls = x.cls := (congrArg Prompt.cls h : y.posted.cls = x.posted.cls)
  unfold mayPresent State.records
  rw [hs, side_of_posted h, ho, hc]

theorem posted_of_seated {x y : Prompt} (h : y.seated = x.seated) : y.posted = x.posted :=
  (congrArg Prompt.posted h : y.seated.posted = x.seated.posted)

/-- A prompt is granted where its seat is. -/
theorem granted_iff_seated (x : Prompt) : (∃ a, x.state = .granted a) ↔ x.seated.state = .granted .presenting := by
  unfold Prompt.seated
  cases x.state <;> simp

theorem held_iff_seated (x : Prompt) : (∃ a, x.state = .held a) ↔ x.seated.state = .held .presenting := by
  unfold Prompt.seated
  cases x.state <;> simp

theorem granted_congr {x y : Prompt} (h : y.seated = x.seated) : (∃ a, y.state = .granted a) ↔ ∃ a, x.state = .granted a := by
  rw [granted_iff_seated, granted_iff_seated, h]

theorem held_congr {x y : Prompt} (h : y.seated = x.seated) : (∃ a, y.state = .held a) ↔ ∃ a, x.state = .held a := by
  rw [held_iff_seated, held_iff_seated, h]

/-- A prompt of one of two tables posted alike has its like in the other. -/
theorem mem_of_posted {l l' : List Prompt} (h : l'.map Prompt.posted = l.map Prompt.posted) {x : Prompt} (hx : x ∈ l') :
    ∃ y ∈ l, y.posted = x.posted := by
  have hm := List.mem_map_of_mem (f := Prompt.posted) hx
  rw [h] at hm
  exact List.mem_map.1 hm

theorem slotsDistinct_of_posted {s t : State} (h : t.ptb.prompts.map Prompt.posted = s.ptb.prompts.map Prompt.posted)
    (hd : slotsDistinct s) : slotsDistinct t := by
  have e : (t.ptb.prompts.map Prompt.posted).map (·.slot) = (s.ptb.prompts.map Prompt.posted).map (·.slot) := congrArg _ h
  rw [List.map_map, List.map_map] at e
  exact (congrArg List.Nodup e).mpr hd

/-- Slots being distinct, two prompts of a slot are one (R12). -/
theorem eq_of_slot {s : State} (hd : slotsDistinct s) {x y : Prompt} (hx : x ∈ s.ptb.prompts) (hy : y ∈ s.ptb.prompts)
    (h : x.slot = y.slot) : x = y := by
  have h1 := State.prompt_of_mem hd hx
  rw [h, State.prompt_of_mem hd hy] at h1
  exact (Option.some.inj h1).symm

/-- A prompt of the changed slot is the change of one that was there. -/
theorem mem_onPrompt_slot {s : State} {n : Nat} {f : Prompt → Prompt} {x : Prompt} (hx : x ∈ (s.onPrompt n f).ptb.prompts)
    (hn : x.slot = n) : ∃ y ∈ s.ptb.prompts, y.slot = n ∧ x = f y := by
  obtain ⟨y, hy, e⟩ := List.mem_map.1 hx
  by_cases hs : y.slot = n
  · exact ⟨y, hy, hs, by rw [← e]; simp [hs]⟩
  · simp only [hs, if_false] at e
    exact absurd (e ▸ hn) hs

/-! ### A change that reaches one slot -/

/-- `t` comes from `s` by a grant or displacement of the prompt of a slot: presentation, and beside that slot's record and the side's
replay nothing of the table, the sides' schedules and the display. -/
structure SlotMoved (n : Nat) (s t : State) : Prop where
  presents : Presents s t
  dsp : t.dsp = s.dsp
  sides : ∀ sd, { t.schedule sd with replay := none } = { s.schedule sd with replay := none }
  rest : t.ptb.prompts.filter (fun y => decide (y.slot ≠ n)) = s.ptb.prompts.filter fun y => decide (y.slot ≠ n)

theorem SlotMoved.refl (n : Nat) (s : State) : SlotMoved n s s := ⟨.refl s, rfl, fun _ => rfl, rfl⟩

theorem SlotMoved.trans {n : Nat} {s t u : State} (h : SlotMoved n s t) (k : SlotMoved n t u) : SlotMoved n s u :=
  ⟨h.presents.trans k.presents, k.dsp.trans h.dsp, fun sd => (k.sides sd).trans (h.sides sd), k.rest.trans h.rest⟩

/-- What speech going on does beside the table. -/
theorem SlotMoved.of_speech {n : Nat} {s t : State} (h : SpeechAlone s t) (hp : Presents s t)
    (hr : t.ptb.prompts.filter (fun y => decide (y.slot ≠ n)) = s.ptb.prompts.filter fun y => decide (y.slot ≠ n)) : SlotMoved n s t :=
  ⟨hp, h.dsp, h.sides, hr⟩

theorem SlotMoved.onPrompt (s : State) (n : Nat) {f : Prompt → Prompt} (h : ∀ p, (f p).posted = p.posted) :
    SlotMoved n s (s.onPrompt n f) :=
  ⟨.onPrompt s n f h, rfl, fun _ => rfl, filter_onPrompt s n fun y => slot_of_posted (h y)⟩

/-- A tone requested touches the Tone Generator alone. -/
theorem soundTone_frame (s : State) (p : Prompt) : s.soundTone p = { s with tgn := (s.soundTone p).tgn } := by
  unfold State.soundTone State.requestTone
  split
  · split <;> rfl
  · rfl

theorem SlotMoved.soundTone (n : Nat) (s : State) (p : Prompt) : SlotMoved n s (s.soundTone p) :=
  ⟨.soundTone s p, by rw [soundTone_frame], fun sd => by rw [soundTone_frame]; rfl, by rw [soundTone_frame]⟩

theorem SlotMoved.grantPrompt (s : State) (n : Nat) : SlotMoved n s (s.grantPrompt n) := by
  unfold State.grantPrompt
  split
  · exact .refl n s
  · split
    · exact .refl n s
    · rename_i a _
      refine (SlotMoved.onPrompt s n (f := fun x => { x with state := .granted a }) fun _ => rfl).trans ?_
      split
      · exact (SlotMoved.soundTone n _ _).trans (.onPrompt _ n posted_emptyDelivered)
      · exact .refl n _

theorem SpeechAlone.loseSpeaker (s : State) (n : Nat) : SpeechAlone s (s.loseSpeaker n) := by
  unfold State.loseSpeaker
  split
  · exact .of_notes s s.sch.preempt s.sch.safetyCut (some .lost) s.sch.lastChannel
  · exact .refl s

theorem SpeechAlone.dropReplay (s : State) (sd : Side) (n : Nat) : SpeechAlone s (s.dropReplay sd n) := by
  unfold State.dropReplay
  split
  · exact .clearReplay s sd
  · exact .refl s

theorem SlotMoved.dropReplay (s : State) (sd : Side) (n : Nat) : SlotMoved n s (s.dropReplay sd n) := by
  refine .of_speech (.dropReplay s sd n) (.dropReplay s sd n) ?_
  unfold State.dropReplay State.clearReplay
  cases (s.schedule sd).replay with
  | none => rfl
  | some r =>
    by_cases hn : r.slot = n
    · subst hn
      simp only [Option.any_some, decide_true, if_true]
      by_cases hb : (r.started && !s.speaks r.slot) = true
      · rw [if_pos hb]
        exact filter_onPrompt s r.slot fun y => slot_of_posted (posted_replayOver y)
      · rw [if_neg hb]
        rfl
    · simp only [Option.any_some, hn, decide_false, Bool.false_eq_true, if_false]

theorem ptb_loseSpeaker (s : State) (n : Nat) : (s.loseSpeaker n).ptb = s.ptb := by
  unfold State.loseSpeaker
  split <;> rfl

theorem SlotMoved.displace (s : State) (n : Nat) : SlotMoved n s (s.displace n) := by
  unfold State.displace
  split
  · exact .refl n s
  · split
    · refine ((SlotMoved.onPrompt s n posted_displaced).trans ?_).trans (.dropReplay _ _ n)
      exact .of_speech (.loseSpeaker _ n) (.loseSpeaker _ n) (by rw [ptb_loseSpeaker])
    · exact .refl n s
    · exact .refl n s

/-- Prompts of other slots stay. -/
theorem SlotMoved.mem_iff {n : Nat} {s t : State} (h : SlotMoved n s t) {x : Prompt} (hn : x.slot ≠ n) :
    x ∈ t.ptb.prompts ↔ x ∈ s.ptb.prompts := by
  have e := congrArg (x ∈ ·) h.rest
  simpa [List.mem_filter, hn] using e

theorem filter_of_filter {l l' : List Prompt} {p q : Prompt → Bool} (h : l'.filter p = l.filter p) (hl : ∀ x ∈ l, p x = false → q x = false)
    (hl' : ∀ x ∈ l', p x = false → q x = false) : l'.filter q = l.filter q := by
  have e : ∀ m : List Prompt, (∀ x ∈ m, p x = false → q x = false) → (m.filter p).filter q = m.filter q := by
    intro m hm
    rw [List.filter_filter]
    refine List.filter_congr fun x hx => ?_
    cases hp : p x with
    | true => simp
    | false => simp [hm x hx hp]
  rw [← e l hl, ← e l' hl', h]

/-- Prompts picked out by what they were posted with stay, where the slot's are not among them. -/
theorem SlotMoved.filter {n : Nat} {s t : State} (h : SlotMoved n s t) {q : Prompt → Bool}
    (hq : ∀ x y : Prompt, y.posted = x.posted → q y = q x) (hs : ∀ x ∈ s.ptb.prompts, x.slot = n → q x = false) :
    t.ptb.prompts.filter q = s.ptb.prompts.filter q := by
  refine filter_of_filter h.rest (fun x hx hn => hs x hx (by simpa using hn)) fun x hx hn => ?_
  obtain ⟨y, hy, e⟩ := mem_of_posted h.presents.prompts hx
  rw [← hq x y e]
  exact hs y hy ((slot_of_posted e).trans (by simpa using hn))

/-! ### Granted and displaced -/

theorem seated_emptyDelivered (p : Prompt) : (emptyDelivered p).seated = p.seated := by
  unfold emptyDelivered
  split
  · exact seated_spanDelivered p
  · rfl

/-- The prompt of a slot that is granted is in a granted state after it (R15). -/
theorem granted_grantPrompt {s : State} (hd : slotsDistinct s) {n : Nat} {x : Prompt} (hx : x ∈ (s.grantPrompt n).ptb.prompts)
    (hn : x.slot = n) : ∃ a, x.state = .granted a := by
  unfold State.grantPrompt at hx
  split at hx
  · rename_i h
    rw [← hn, State.prompt_of_mem hd hx] at h
    cases h
  · rename_i p h
    split at hx
    · rename_i hg
      rw [← hn, State.prompt_of_mem hd hx] at h
      cases h
      cases hs : x.state with
      | granted a => exact ⟨a, rfl⟩
      | queued => rw [hs] at hg; cases hg
      | held a => rw [hs] at hg; cases hg
    · rename_i a _
      have hset : ∀ y ∈ (s.onPrompt n fun x => { x with state := .granted a }).ptb.prompts, y.slot = n → ∃ b, y.state = .granted b := by
        intro y hy hyn
        obtain ⟨z, -, -, rfl⟩ := mem_onPrompt_slot hy hyn
        exact ⟨a, rfl⟩
      dsimp only at hx
      split at hx
      · obtain ⟨y, hy, hyn, rfl⟩ := mem_onPrompt_slot hx hn
        refine (granted_congr (seated_emptyDelivered y)).2 (hset y ?_ hyn)
        rwa [soundTone_frame] at hy
      · exact hset x hx hn

/-- The prompt of a slot that is displaced has the seat of the displaced prompt after it (R19). -/
theorem seated_displace {s : State} (hd : slotsDistinct s) {y x : Prompt} (hy : y ∈ s.ptb.prompts)
    (hx : x ∈ (s.displace y.slot).ptb.prompts) (hn : x.slot = y.slot) : x.seated = (displaced y).seated := by
  unfold State.displace at hx
  rw [State.prompt_of_mem hd hy] at hx
  dsimp only at hx
  have hstay : displaced y = y → x ∈ s.ptb.prompts → x.seated = (displaced y).seated := by
    intro e hx
    rw [e, eq_of_slot hd hx hy hn]
  split at hx
  · obtain ⟨z, hz, e⟩ := mem_of_seated ((SpeechAlone.loseSpeaker _ y.slot).trans (.dropReplay _ y.side y.slot)).prompts hx
    obtain ⟨w, hw, hwn, rfl⟩ := mem_onPrompt_slot hz ((slot_of_seated e).trans hn)
    rw [← e, eq_of_slot hd hw hy hwn]
  · rename_i h
    exact hstay (by unfold displaced; rw [h]) hx
  · rename_i h
    exact hstay (by unfold displaced; rw [h]) hx

theorem displaced_held {x : Prompt} (h : ∃ a, x.state = .granted a) : ∃ a, (displaced x).state = .held a := by
  obtain ⟨a, h⟩ := h
  exact ⟨a, by unfold displaced; rw [h]⟩

theorem displaced_not_granted (x : Prompt) : ¬ ∃ a, (displaced x).state = .granted a := by
  unfold displaced
  cases h : x.state <;> simp [h]

end Sys2Proof.Machine
end

section
/-! A side's pageless prompts reviewed and its region chosen again (R31 to R36). -/

namespace Sys2Proof.Machine

open Sys2Proof.Claims

/-! ### What the choice of a region looks at -/

/-- Whether a prompt carries a page record. -/
def Prompt.paged (x : Prompt) : Bool := x.page.isSome

theorem paged_congr (x y : Prompt) (h : y.posted = x.posted) : y.paged = x.paged := congrArg Option.isSome (page_of_posted h)

/-- `t` differs from `s` in nothing that a choice of regions looks at: the sides, what prompts were posted with, and the
prompts with a page record as they stand. -/
structure RegionAlike (s t : State) : Prop where
  cfg : t.cfg = s.cfg
  scu : t.scu = s.scu
  directory : t.psc.directory = s.psc.directory
  dsp : t.dsp = s.dsp
  sides : ∀ sd, { t.schedule sd with replay := none } = { s.schedule sd with replay := none }
  prompts : t.ptb.prompts.map Prompt.posted = s.ptb.prompts.map Prompt.posted
  paged : t.ptb.prompts.filter Prompt.paged = s.ptb.prompts.filter Prompt.paged

theorem RegionAlike.refl (s : State) : RegionAlike s s := ⟨rfl, rfl, rfl, rfl, fun _ => rfl, rfl, rfl⟩

theorem RegionAlike.trans {s t u : State} (h : RegionAlike s t) (k : RegionAlike t u) : RegionAlike s u :=
  ⟨k.cfg.trans h.cfg, k.scu.trans h.scu, k.directory.trans h.directory, k.dsp.trans h.dsp, fun sd => (k.sides sd).trans (h.sides sd),
    k.prompts.trans h.prompts, k.paged.trans h.paged⟩

/-- A grant or displacement of a prompt without a page record. -/
theorem RegionAlike.of_slotMoved {n : Nat} {s t : State} (h : SlotMoved n s t)
    (hn : ∀ x ∈ s.ptb.prompts, x.slot = n → x.page = none) : RegionAlike s t :=
  ⟨h.presents.cfg, h.presents.scu, h.presents.directory, h.dsp, h.sides, h.presents.prompts,
    h.filter paged_congr fun x hx e => by unfold Prompt.paged; rw [hn x hx e]; rfl⟩

/-- Schedules alike but for the replay. -/
theorem schedule_fields {x y : SideSchedule} (h : { y with replay := none } = { x with replay := none }) :
    y.owner = x.owner ∧ y.lastOwner = x.lastOwner ∧ y.fallbackDue = x.fallbackDue := by
  obtain ⟨yo, yl, yd, yu, yr⟩ := y
  obtain ⟨xo, xl, xd, xu, xr⟩ := x
  cases h
  exact ⟨rfl, rfl, rfl⟩

theorem RegionAlike.owner {s t : State} (h : RegionAlike s t) (sd : Side) : (t.schedule sd).owner = (s.schedule sd).owner :=
  (schedule_fields (h.sides sd)).1

theorem RegionAlike.lastOwner {s t : State} (h : RegionAlike s t) (sd : Side) : (t.schedule sd).lastOwner = (s.schedule sd).lastOwner :=
  (schedule_fields (h.sides sd)).2.1

theorem RegionAlike.distinct {s t : State} (h : RegionAlike s t) (hd : slotsDistinct s) : slotsDistinct t :=
  slotsDistinct_of_posted h.prompts hd

theorem RegionAlike.mem_iff {s t : State} (h : RegionAlike s t) {x : Prompt} (hx : x.page.isSome = true) :
    x ∈ t.ptb.prompts ↔ x ∈ s.ptb.prompts := by
  have e := congrArg (x ∈ ·) h.paged
  simpa [List.mem_filter, Prompt.paged, hx] using e

theorem RegionAlike.owned {s t : State} (h : RegionAlike s t) (ho : regionsOwned s) : regionsOwned t := by
  refine ⟨h.distinct ho.1, fun sd n hn => ?_⟩
  obtain ⟨x, hx, e, hs, hp, hg⟩ := ho.2 sd n ((h.owner sd).symm.trans hn)
  exact ⟨x, (h.mem_iff hp).2 hx, e, hs, hp, hg⟩

/-- The prompt that owns a region is on its side, has a page record and is granted (R34). -/
theorem owner_spec {s : State} (ho : regionsOwned s) {sd : Side} {x : Prompt} (hx : x ∈ s.ptb.prompts)
    (h : (s.schedule sd).owner = some x.slot) : x.side = sd ∧ x.page.isSome = true ∧ ∃ a, x.state = .granted a := by
  obtain ⟨y, hy, e, hs, hp, hg⟩ := ho.2 sd x.slot h
  rw [eq_of_slot ho.1 hx hy e.symm]
  exact ⟨hs, hp, hg⟩

/-! ### Contents of regions -/

theorem region_congr {s t : State} (h : t.dsp = s.dsp) (sd : Side) : t.region sd = s.region sd := by
  unfold State.region
  rw [h]

theorem regionShowing_congr {s t : State} (hc : t.cfg = s.cfg) (hd : t.psc.directory = s.psc.directory) (hr : t.scu = s.scu)
    (hp : t.dsp = s.dsp) (sd : Side) (n : Nat) (g : PageRecord) : regionShowing t sd n g = regionShowing s sd n g := by
  unfold regionShowing
  rw [rendered_congr hc hd hr, region_congr hp]
  unfold State.records
  rw [hr]

theorem regionLeft_congr {s t : State} (hp : t.dsp = s.dsp) {sd : Side} (hd : (t.schedule sd).fallbackDue = (s.schedule sd).fallbackDue) :
    regionLeft t sd = regionLeft s sd := by
  unfold regionLeft
  rw [region_congr hp, hd]

/-! ### Candidates (R29, R34) -/

theorem mem_regionCandidates_iff (s : State) (sd : Side) (x : Prompt) : x ∈ s.regionCandidates sd ↔ regionCandidate s sd x := by
  unfold State.regionCandidates regionCandidate
  simp only [List.mem_filter, Bool.and_eq_true, decide_eq_true_eq, State.eligible_iff, and_assoc]

theorem regionCandidate_congr {s t : State} (h : RegionAlike s t) (sd : Side) (x : Prompt) :
    regionCandidate t sd x ↔ regionCandidate s sd x := by
  unfold regionCandidate
  constructor
  · rintro ⟨hx, hs, hp, hm⟩
    exact ⟨(h.mem_iff hp).1 hx, hs, hp, (mayPresent_congr h.scu rfl).1 hm⟩
  · rintro ⟨hx, hs, hp, hm⟩
    exact ⟨(h.mem_iff hp).2 hx, hs, hp, (mayPresent_congr h.scu rfl).2 hm⟩

/-- The prompt above every other candidate is the one that the choice finds. -/
theorem topRanked_of_regionTopped {s : State} (hd : slotsDistinct s) {sd : Side} {last : Option Port} {x : Prompt}
    (h : regionTopped s sd last x) : topRanked s.cfg.fairTurn last (s.regionCandidates sd) = some x :=
  topRanked_eq_some (posted_nodup hd) List.filter_sublist ((mem_regionCandidates_iff s sd x).2 h.1) fun y hy hne =>
    h.2 y ((mem_regionCandidates_iff s sd y).1 hy) hne

/-- Two prompts with page records come in the order of the table's prompts with page records. -/
theorem pair_sublist_paged {l : List Prompt} {x y : Prompt} (hx : x.page.isSome = true) (hy : y.page.isSome = true) :
    [x, y].Sublist l ↔ [x, y].Sublist (l.filter Prompt.paged) := by
  refine ⟨fun h => ?_, fun h => h.trans List.filter_sublist⟩
  have e : [x, y].filter Prompt.paged = [x, y] := by simp [Prompt.paged, hx, hy]
  rw [← e]
  exact h.filter _

theorem ranksAbove_congr {s t : State} (h : RegionAlike s t) {last : Option Port} {x y : Prompt} (hx : x.page.isSome = true)
    (hy : y.page.isSome = true) :
    ranksAbove t.cfg.fairTurn last t.ptb.prompts x y ↔ ranksAbove s.cfg.fairTurn last s.ptb.prompts x y := by
  unfold ranksAbove
  rw [h.cfg, pair_sublist_paged hx hy, h.paged, ← pair_sublist_paged hx hy]

theorem regionTopped_congr {s t : State} (h : RegionAlike s t) {sd : Side} {last : Option Port} {x : Prompt}
    (hx : regionTopped s sd last x) : regionTopped t sd last x := by
  refine ⟨(regionCandidate_congr h sd x).2 hx.1, fun y hy hne => ?_⟩
  have hy := (regionCandidate_congr h sd y).1 hy
  exact (ranksAbove_congr h hx.1.2.2.1 hy.2.2.1).2 (hx.2 y hy hne)

/-! ### A region handed over (R36) -/

/-- A side's region without its former owner: from `s` to `v` that owner is HELD and the last-owner record is `last`; the next
owner is not yet installed. -/
structure OwnerGone (s v : State) (sd : Side) (last : Option Port) : Prop where
  distinct : slotsDistinct v
  cfg : v.cfg = s.cfg
  scu : v.scu = s.scu
  directory : v.psc.directory = s.psc.directory
  dsp : v.dsp = s.dsp
  record : (v.schedule sd).lastOwner = last
  due : (v.schedule sd).fallbackDue = (s.schedule sd).fallbackDue
  other : (v.schedule (otherSide sd)).owner = (s.schedule (otherSide sd)).owner ∧
    (v.schedule (otherSide sd)).lastOwner = (s.schedule (otherSide sd)).lastOwner
  held : ∀ x ∈ v.ptb.prompts, (s.schedule sd).owner = some x.slot → ∃ a, x.state = .held a

/-- A side's region handed over, from `s` to `t`: to a prompt, or to nobody. -/
structure Handed (s t : State) (sd : Side) (new : Option Prompt) (last : Option Port) : Prop where
  owner : (t.schedule sd).owner = new.map (·.slot)
  record : (t.schedule sd).lastOwner = last
  shown : ∀ y g, new = some y → y.page = some g → t.region sd = regionShowing s sd y.slot g
  left : new = none → t.region sd = regionLeft s sd
  other : t.region (otherSide sd) = s.region (otherSide sd) ∧ (t.schedule (otherSide sd)).owner = (s.schedule (otherSide sd)).owner ∧
    (t.schedule (otherSide sd)).lastOwner = (s.schedule (otherSide sd)).lastOwner
  granted : ∀ x ∈ t.ptb.prompts, new.map (·.slot) = some x.slot → ∃ a, x.state = .granted a
  held : ∀ x ∈ t.ptb.prompts, (s.schedule sd).owner = some x.slot → new.map (·.slot) ≠ some x.slot → ∃ a, x.state = .held a

theorem schedule_onSchedule_other (s : State) (sd : Side) (f : SideSchedule → SideSchedule) :
    (s.onSchedule sd f).schedule (otherSide sd) = s.schedule (otherSide sd) := by cases sd <;> rfl

/-- A region without an owner has nobody to displace. -/
theorem OwnerGone.of_unowned {s : State} (hd : slotsDistinct s) {sd : Side} (h : (s.schedule sd).owner = none) :
    OwnerGone s s sd (s.schedule sd).lastOwner :=
  ⟨hd, rfl, rfl, rfl, rfl, rfl, rfl, ⟨rfl, rfl⟩, fun x _ e => by rw [h] at e; cases e⟩

/-- An owner displaced and recorded (R31). -/
theorem OwnerGone.of_displaced {s : State} (ho : regionsOwned s) {sd : Side} {x : Prompt} (hx : x ∈ s.ptb.prompts)
    (h : (s.schedule sd).owner = some x.slot) (o : Port) : OwnerGone s ((s.displace x.slot).setLastOwner sd o) sd (some o) := by
  obtain ⟨-, -, hg⟩ := owner_spec ho hx h
  have hm := SlotMoved.displace s x.slot
  obtain ⟨-, -, hdue⟩ := schedule_fields (hm.sides sd)
  obtain ⟨howner, hlast, -⟩ := schedule_fields (hm.sides (otherSide sd))
  refine ⟨slotsDistinct_of_posted hm.presents.prompts ho.1, hm.presents.cfg, hm.presents.scu, hm.presents.directory, hm.dsp, ?_, ?_,
    ⟨?_, ?_⟩, fun z hz e => ?_⟩
  · unfold State.setLastOwner
    rw [State.schedule_onSchedule]
  · unfold State.setLastOwner
    rw [State.schedule_onSchedule]
    exact hdue
  · unfold State.setLastOwner
    rw [schedule_onSchedule_other]
    exact howner
  · unfold State.setLastOwner
    rw [schedule_onSchedule_other]
    exact hlast
  · have hz' := seated_displace ho.1 hx hz (Option.some.inj (e.symm.trans h))
    exact (held_congr hz').2 (displaced_held hg)

/-- A prompt with a page record installed (R36). -/
theorem Handed.install {s v : State} {sd : Side} {last : Option Port} (h : OwnerGone s v sd last) {y : Prompt} {g : PageRecord}
    (hg : y.page = some g) : Handed s (v.install sd y) sd (some y) last := by
  have hm := SlotMoved.grantPrompt (v.onSchedule sd fun x => { x with owner := some y.slot }) y.slot
  have hgr := fun (z : Prompt) hz hn => granted_grantPrompt (s := v.onSchedule sd fun x => { x with owner := some y.slot })
    h.distinct (n := y.slot) (x := z) hz hn
  obtain ⟨howner, hlast, -⟩ := schedule_fields (hm.sides sd)
  obtain ⟨hoowner, holast, -⟩ := schedule_fields (hm.sides (otherSide sd))
  rw [State.schedule_onSchedule] at howner hlast
  rw [schedule_onSchedule_other] at hoowner holast
  have he : v.install sd y =
      ((v.onSchedule sd fun x => { x with owner := some y.slot }).grantPrompt y.slot).showContent sd (.prompt y.slot g) := by
    unfold State.install ownerContent
    rw [hg]
  rw [he]
  generalize (v.onSchedule sd fun x => { x with owner := some y.slot }).grantPrompt y.slot = w at *
  have hr := region_showContent_prompt w sd y.slot g
  have hro := region_showContent_other w sd (.prompt y.slot g)
  rw [showContent_frame] at hr hro ⊢
  refine ⟨howner, hlast.trans h.record, ?_, (nomatch ·), ⟨hro.trans (region_congr (hm.dsp.trans h.dsp) _),
    hoowner.trans h.other.1, holast.trans h.other.2⟩, fun z hz e => ?_, fun z hz e hne => ?_⟩
  · intro y' g' e hg'
    cases e
    cases hg.symm.trans hg'
    exact hr.trans (regionShowing_congr (hm.presents.cfg.trans h.cfg) (hm.presents.directory.trans h.directory)
      (hm.presents.scu.trans h.scu) (hm.dsp.trans h.dsp) sd y.slot g)
  · exact hgr z hz (Option.some.inj e).symm
  · exact h.held z ((hm.mem_iff fun q => hne (congrArg some q.symm)).1 hz) e

theorem ptb_vacate (v : State) (sd : Side) : (v.vacate sd).ptb = v.ptb := by
  unfold State.vacate
  dsimp only
  split
  · rw [showContent_frame]
    rfl
  · rfl

theorem schedule_vacate (v : State) (sd sd' : Side) :
    (v.vacate sd).schedule sd' = (v.onSchedule sd fun x => { x with owner := none }).schedule sd' := by
  unfold State.vacate
  dsimp only
  split
  · rw [showContent_frame]
    rfl
  · rfl

theorem region_vacate_other (v : State) (sd : Side) : (v.vacate sd).region (otherSide sd) = v.region (otherSide sd) := by
  unfold State.vacate
  dsimp only
  split
  · exact region_showContent_other _ sd _
  · rfl

theorem region_vacate (v : State) (sd : Side) : (v.vacate sd).region sd = regionLeft v sd := by
  unfold State.vacate regionLeft
  dsimp only
  split
  · split
    · rw [region_showContent_fallback]
    · rw [region_showContent_empty]
  · rfl

/-- A region left without an owner (R36, R38). -/
theorem Handed.vacate {s v : State} {sd : Side} {last : Option Port} (h : OwnerGone s v sd last) :
    Handed s (v.vacate sd) sd none last where
  owner := by rw [schedule_vacate, State.schedule_onSchedule]; rfl
  record := by rw [schedule_vacate, State.schedule_onSchedule]; exact h.record
  shown _ _ e := nomatch e
  left _ := (region_vacate v sd).trans (regionLeft_congr h.dsp h.due)
  other := by
    rw [region_vacate_other, schedule_vacate, schedule_onSchedule_other, region_congr h.dsp]
    exact ⟨rfl, h.other⟩
  granted _ _ e := nomatch e
  held z hz e _ := h.held z (by rwa [ptb_vacate] at hz) e

/-- A region handed over to the top-ranked candidate, or to nobody. -/
theorem Handed.installTop {s v : State} {sd : Side} {last : Option Port} (h : OwnerGone s v sd last) :
    Handed s (v.installTop sd) sd (v.regionTop sd) last := by
  unfold State.installTop
  cases hy : v.regionTop sd with
  | none => exact .vacate h
  | some y =>
    obtain ⟨-, -, hp, -⟩ := (mem_regionCandidates_iff v sd y).1 (mem_of_topRanked hy)
    obtain ⟨g, hg⟩ := Option.isSome_iff_exists.1 hp
    exact .install h hg

/-- A region handed over to the top-ranked candidate is chosen again. -/
theorem regionChosen_of_handed {s t : State} {sd : Side} {new : Option Prompt} {last record : Option Port} (ho : regionsOwned s)
    (h : Handed s t sd new record) (hn : topRanked s.cfg.fairTurn last (s.regionCandidates sd) = new)
    (hx : ∀ x ∈ s.ptb.prompts, (s.schedule sd).owner = some x.slot → (mayPresent s x → last = (s.schedule sd).lastOwner) ∧
      (¬ mayPresent s x → last = some x.owner) ∧ record = some x.owner ∧ new.map (·.slot) ≠ some x.slot)
    (hu : (s.schedule sd).owner = none → last = (s.schedule sd).lastOwner ∧ record = (s.schedule sd).lastOwner) :
    RegionChosen s t sd last where
  record x hx' e := by
    obtain ⟨h1, h2, h3, h4⟩ := hx x hx' e
    refine ⟨h1, h2, ?_⟩
    rw [h.owner, e, if_neg h4, h.record, h3]
  unheld e := ⟨(hu e).1, h.record.trans (hu e).2⟩
  chosen x hx' := by
    rw [h.owner, ← hn, topRanked_of_regionTopped ho.1 hx']
    rfl
  nobody hno := by
    have e : s.regionCandidates sd = [] := List.eq_nil_iff_forall_not_mem.2 fun x hx' => hno x ((mem_regionCandidates_iff s sd x).1 hx')
    rw [h.owner, ← hn, e]
    rfl
  granted x hx' e := h.granted x hx' (h.owner.symm.trans e)
  displaced x hx' e hne := h.held x hx' e (by rw [← h.owner, ← e]; exact hne)
  shown x hx' g hg e := by
    rw [h.owner] at e
    obtain ⟨y, hy, hs⟩ := Option.map_eq_some_iff.1 e
    obtain ⟨hy', -, -, -⟩ := (mem_regionCandidates_iff s sd y).1 (mem_of_topRanked (hn.trans hy))
    cases eq_of_slot ho.1 hy' hx' hs
    rw [if_neg fun q => (hx x hx' q).2.2.2 e]
    exact h.shown x g hy hg
  left e := h.left (by rw [h.owner] at e; simpa using e)
  other := h.other

/-! ### The choice (R31, R35, R36) -/

theorem replay_setLastOwner (s : State) (sd sd' : Side) (o : Port) :
    ((s.setLastOwner sd o).schedule sd').replay = (s.schedule sd').replay := by
  cases sd <;> cases sd' <;> rfl

/-- The record of a last owner and the clearing of a replay are of different fields. -/
theorem onSchedule_setLastOwner (s : State) (sd sd' : Side) (o : Port) :
    (s.setLastOwner sd o).onSchedule sd' (fun x => { x with replay := none }) =
      (s.onSchedule sd' fun x => { x with replay := none }).setLastOwner sd o := by
  cases sd <;> cases sd' <;> rfl

theorem clearReplay_setLastOwner (s : State) (sd sd' : Side) (o : Port) :
    (s.setLastOwner sd o).clearReplay sd' = (s.clearReplay sd').setLastOwner sd o := by
  unfold State.clearReplay
  rw [replay_setLastOwner]
  cases (s.schedule sd').replay with
  | none => rfl
  | some r =>
    have hs : (s.setLastOwner sd o).speaks r.slot = s.speaks r.slot := rfl
    dsimp only
    rw [← onSchedule_setLastOwner, hs]
    congr 1
    split <;> rfl

theorem dropReplay_setLastOwner (s : State) (sd sd' : Side) (o : Port) (n : Nat) :
    (s.setLastOwner sd o).dropReplay sd' n = (s.dropReplay sd' n).setLastOwner sd o := by
  unfold State.dropReplay
  rw [replay_setLastOwner, clearReplay_setLastOwner]
  split <;> rfl

theorem loseSpeaker_setLastOwner (s : State) (sd : Side) (o : Port) (n : Nat) :
    (s.setLastOwner sd o).loseSpeaker n = (s.loseSpeaker n).setLastOwner sd o := by
  have hs : (s.setLastOwner sd o).speaks n = s.speaks n := rfl
  unfold State.loseSpeaker
  rw [hs]
  split <;> rfl

/-- Recording the last owner and displacing it come to the same in either order. -/
theorem displace_setLastOwner (s : State) (sd : Side) (o : Port) (n : Nat) :
    (s.setLastOwner sd o).displace n = (s.displace n).setLastOwner sd o := by
  have hp : (s.setLastOwner sd o).prompt n = s.prompt n := rfl
  unfold State.displace
  rw [hp]
  cases s.prompt n with
  | none => rfl
  | some p =>
    dsimp only
    cases p.state with
    | queued => rfl
    | held a => rfl
    | granted a =>
      dsimp only
      rw [← dropReplay_setLastOwner, ← loseSpeaker_setLastOwner]
      rfl

theorem eligible_congr {s t : State} (hs : t.scu = s.scu) {x y : Prompt} (h : y.posted = x.posted) : t.eligible y = s.eligible x := by
  rw [Bool.eq_iff_iff, State.eligible_iff, State.eligible_iff]
  exact mayPresent_congr hs h

/-- A displaced prompt that was no candidate leaves the candidates as they were. -/
theorem regionCandidates_displaced {s : State} (hd : slotsDistinct s) {sd : Side} {x : Prompt} (hx : x ∈ s.ptb.prompts)
    (hm : ¬ mayPresent s x) (o : Port) :
    ((s.displace x.slot).setLastOwner sd o).regionCandidates sd = s.regionCandidates sd := by
  have h := SlotMoved.displace s x.slot
  have hq : ∀ y z : Prompt, z.posted = y.posted → (decide (z.side = sd) && z.page.isSome && s.eligible z) =
      (decide (y.side = sd) && y.page.isSome && s.eligible y) := fun y z e => by
    rw [side_of_posted e, page_of_posted e, eligible_congr rfl e]
  have hf := h.filter hq fun y hy hn => by
    rw [eq_of_slot hd hy hx hn, Bool.eq_false_iff.2 fun q => hm ((State.eligible_iff s x).1 q), Bool.and_false]
  refine Eq.trans (List.filter_congr fun z _ => ?_) hf
  rw [← eligible_congr (x := z) (y := z) h.presents.scu rfl]
  rfl

/-- The owner's record, where a region has an owner. -/
theorem ownerPrompt_cases {s : State} (ho : regionsOwned s) (sd : Side) :
    (s.ownerPrompt sd = none ∧ (s.schedule sd).owner = none) ∨
      ∃ x ∈ s.ptb.prompts, s.ownerPrompt sd = some x ∧ (s.schedule sd).owner = some x.slot := by
  unfold State.ownerPrompt
  cases h : (s.schedule sd).owner with
  | none => exact .inl ⟨rfl, rfl⟩
  | some n =>
    obtain ⟨x, hx, rfl, -⟩ := ho.2 sd n h
    exact .inr ⟨x, hx, State.prompt_of_mem ho.1 hx, rfl⟩

/-- A region that keeps its owner is chosen again without a change. -/
theorem regionChosen_of_stays {s : State} (ho : regionsOwned s) {sd : Side} {x : Prompt} (hx : x ∈ s.ptb.prompts)
    (h : (s.schedule sd).owner = some x.slot) (hm : mayPresent s x) (ht : s.regionTop sd = some x) :
    RegionChosen s s sd (s.schedule sd).lastOwner where
  record y hy e := by
    cases eq_of_slot ho.1 hx hy (Option.some.inj (h.symm.trans e))
    exact ⟨fun _ => rfl, fun hn => absurd hm hn, by rw [if_pos rfl]⟩
  unheld _ := ⟨rfl, rfl⟩
  chosen y hy := by
    cases ht.symm.trans (topRanked_of_regionTopped ho.1 hy)
    exact h
  nobody hno := absurd ((mem_regionCandidates_iff s sd x).1 (mem_of_topRanked ht)) (hno x)
  granted y hy e := (owner_spec ho hy e).2.2
  displaced _ _ _ hne := absurd rfl hne
  shown y _ _ _ e := by rw [if_pos e]
  left e := by rw [h] at e; cases e
  other := ⟨rfl, rfl, rfl⟩

/-- The owner of a region is a candidate while it is eligible (R34). -/
theorem owner_candidate {s : State} (ho : regionsOwned s) {sd : Side} {x : Prompt} (hx : x ∈ s.ptb.prompts)
    (h : (s.schedule sd).owner = some x.slot) (hm : mayPresent s x) : x ∈ s.regionCandidates sd := by
  obtain ⟨hs, hp, -⟩ := owner_spec ho hx h
  exact (mem_regionCandidates_iff s sd x).2 ⟨hx, hs, hp, hm⟩

/-- Some candidate is the top-ranked. -/
theorem topRanked_of_mem {fair : Bool} {last : Option Port} {l : List Prompt} {x : Prompt} (h : x ∈ l) :
    ∃ y, topRanked fair last l = some y := by
  cases l with
  | nil => cases h
  | cons z l =>
    obtain ⟨p, -, -, hp, -⟩ := topRanked_cons fair last l z
    exact ⟨p, hp⟩

/-- The ways a region is chosen again: nobody owned it, its owner stays, is outranked, or lost its eligibility (R31, R35). -/
theorem chooseRegion_cases {s : State} (ho : regionsOwned s) (sd : Side) {motive : State → Prop}
    (unowned : (s.schedule sd).owner = none → motive (s.installTop sd))
    (stays : ∀ x ∈ s.ptb.prompts, (s.schedule sd).owner = some x.slot → mayPresent s x → s.regionTop sd = some x → motive s)
    (outranked : ∀ x ∈ s.ptb.prompts, ∀ y ∈ s.ptb.prompts, (s.schedule sd).owner = some x.slot → mayPresent s x →
      s.regionTop sd = some y → y.slot ≠ x.slot → motive (((s.displace x.slot).setLastOwner sd x.owner).install sd y))
    (barred : ∀ x ∈ s.ptb.prompts, (s.schedule sd).owner = some x.slot → ¬ mayPresent s x →
      motive (((s.displace x.slot).setLastOwner sd x.owner).installTop sd)) : motive (s.chooseRegion sd) := by
  unfold State.chooseRegion
  rcases ownerPrompt_cases ho sd with ⟨hp, h⟩ | ⟨x, hx, hp, h⟩
  · rw [hp]
    exact unowned h
  · rw [hp]
    dsimp only
    by_cases hm : mayPresent s x
    · rw [if_pos ((State.eligible_iff s x).2 hm)]
      obtain ⟨y, hy⟩ := topRanked_of_mem (fair := s.cfg.fairTurn) (last := (s.schedule sd).lastOwner) (owner_candidate ho hx h hm)
      obtain ⟨hym, -⟩ := (mem_regionCandidates_iff s sd y).1 (mem_of_topRanked hy)
      have hy : s.regionTop sd = some y := hy
      rw [hy]
      dsimp only
      split
      · rename_i e
        exact stays x hx h hm (by rw [hy, eq_of_slot ho.1 hym hx e])
      · rename_i e
        exact outranked x hx y hym h hm hy e
    · rw [if_neg fun q => hm ((State.eligible_iff s x).1 q), displace_setLastOwner]
      exact barred x hx h hm

/-- The region of a side is chosen again by the model as R35 and R36 have it. -/
theorem chooseRegion_chosen {s : State} (ho : regionsOwned s) (sd : Side) : ∃ last, RegionChosen s (s.chooseRegion sd) sd last := by
  refine chooseRegion_cases ho sd (motive := fun t => ∃ last, RegionChosen s t sd last) ?_ ?_ ?_ ?_
  · intro h
    exact ⟨_, regionChosen_of_handed ho (.installTop (.of_unowned ho.1 h)) rfl (fun x _ e => nomatch h.symm.trans e) fun _ => ⟨rfl, rfl⟩⟩
  · intro x hx h hm ht
    exact ⟨_, regionChosen_of_stays ho hx h hm ht⟩
  · intro x hx y hy h hm ht hne
    obtain ⟨-, -, hp, -⟩ := (mem_regionCandidates_iff s sd y).1 (mem_of_topRanked ht)
    obtain ⟨g, hg⟩ := Option.isSome_iff_exists.1 hp
    refine ⟨(s.schedule sd).lastOwner, regionChosen_of_handed ho (.install (.of_displaced ho hx h x.owner) hg) ht (fun z hz e => ?_)
      fun e => nomatch h.symm.trans e⟩
    cases eq_of_slot ho.1 hx hz (Option.some.inj (h.symm.trans e))
    exact ⟨fun _ => rfl, fun hn => absurd hm hn, rfl, fun q => hne (Option.some.inj q)⟩
  · intro x hx h hm
    have hgone := OwnerGone.of_displaced ho hx h x.owner
    have hc := regionCandidates_displaced ho.1 (sd := sd) hx hm x.owner
    have ht : topRanked s.cfg.fairTurn (some x.owner) (s.regionCandidates sd) =
        ((s.displace x.slot).setLastOwner sd x.owner).regionTop sd := by
      unfold State.regionTop
      rw [hc, hgone.record, hgone.cfg]
    refine ⟨some x.owner, regionChosen_of_handed ho (.installTop hgone) ht (fun z hz e => ?_) fun e => nomatch h.symm.trans e⟩
    cases eq_of_slot ho.1 hx hz (Option.some.inj (h.symm.trans e))
    refine ⟨fun hn => absurd hn hm, fun _ => rfl, rfl, fun q => ?_⟩
    obtain ⟨y, hy, hs⟩ := Option.map_eq_some_iff.1 q
    obtain ⟨hym, -, -, hmy⟩ := (mem_regionCandidates_iff s sd y).1 (mem_of_topRanked (ht.trans hy))
    rw [eq_of_slot ho.1 hym hx hs] at hmy
    exact hm hmy

/-- A choice seen from a state alike. -/
theorem regionChosen_of_alike {s t u : State} (ho : regionsOwned s) (h : RegionAlike s t) {sd : Side} {last : Option Port}
    (k : RegionChosen t u sd last) : RegionChosen s u sd last where
  record x hx e := by
    obtain ⟨-, hp, -⟩ := owner_spec ho hx e
    have hr := k.record x ((h.mem_iff hp).2 hx) ((h.owner sd).trans e)
    rwa [mayPresent_congr h.scu rfl, h.owner, h.lastOwner] at hr
  unheld e := by
    rw [← h.lastOwner]
    exact k.unheld ((h.owner sd).trans e)
  chosen x hx := k.chosen x (regionTopped_congr h hx)
  nobody hn := k.nobody fun x hx => hn x ((regionCandidate_congr h sd x).1 hx)
  granted := k.granted
  displaced := by
    rw [← h.owner]
    exact k.displaced
  shown x hx g hg e := by
    rw [k.shown x ((h.mem_iff (by rw [hg]; rfl)).2 hx) g hg e, h.owner, region_congr h.dsp,
      regionShowing_congr h.cfg h.directory h.scu h.dsp]
  left e := (k.left e).trans (regionLeft_congr h.dsp (schedule_fields (h.sides sd)).2.2)
  other := by
    rw [← region_congr h.dsp, ← h.owner, ← h.lastOwner]
    exact k.other

/-- Speech going on keeps a choice. -/
theorem regionChosen_speech {s t u : State} {sd : Side} {last : Option Port} (h : RegionChosen s t sd last) (k : SpeechAlone t u) :
    RegionChosen s u sd last := by
  obtain ⟨howner, hlast, -⟩ := schedule_fields (k.sides sd)
  obtain ⟨hoowner, holast, -⟩ := schedule_fields (k.sides (otherSide sd))
  have hr := region_congr k.dsp
  exact
    { record := fun x hx e => by rw [howner, hlast]; exact h.record x hx e
      unheld := fun e => by rw [hlast]; exact h.unheld e
      chosen := fun x hx => howner.trans (h.chosen x hx)
      nobody := fun hn => howner.trans (h.nobody hn)
      granted := fun x hx e => by
        obtain ⟨y, hy, hs⟩ := mem_of_seated k.prompts hx
        exact (granted_congr hs).1 (h.granted y hy (howner.symm.trans (e.trans (congrArg some (slot_of_seated hs).symm))))
      displaced := fun x hx e hne => by
        obtain ⟨y, hy, hs⟩ := mem_of_seated k.prompts hx
        exact (held_congr hs).1 (h.displaced y hy (e.trans (congrArg some (slot_of_seated hs).symm)) (by rwa [← howner]))
      shown := fun x hx g hg e => (hr sd).trans (h.shown x hx g hg (howner.symm.trans e))
      left := fun e => (hr sd).trans (h.left (howner.symm.trans e))
      other := by rw [hr, hoowner, holast]; exact h.other }

/-! ### Prompts without a page record (R33; log 15) -/

/-- What the review does to a prompt's slot. -/
def State.reviewSlot (s : State) (p : Prompt) : State := if s.eligible p then s.grantPrompt p.slot else s.displace p.slot

theorem reviewPageless_eq (s : State) (sd : Side) : s.reviewPageless sd =
    (s.ptb.prompts.filter fun p => decide (p.side = sd) && p.page.isNone).foldl State.reviewSlot s := rfl

theorem SlotMoved.reviewSlot (s : State) (p : Prompt) : SlotMoved p.slot s (s.reviewSlot p) := by
  unfold State.reviewSlot
  split
  · exact .grantPrompt s _
  · exact .displace s _

/-- A prompt reviewed is granted exactly where it is eligible. -/
theorem granted_reviewSlot {s : State} (hd : slotsDistinct s) {p y : Prompt} (hy : y ∈ s.ptb.prompts) (hp : y.posted = p.posted)
    {x : Prompt} (hx : x ∈ (s.reviewSlot p).ptb.prompts) (hn : x.slot = p.slot) : mayPresent s p ↔ ∃ a, x.state = .granted a := by
  unfold State.reviewSlot at hx
  split at hx
  · rename_i h
    exact iff_of_true ((State.eligible_iff s p).1 h) (granted_grantPrompt hd hx hn)
  · rename_i h
    rw [← slot_of_posted hp] at hx hn
    refine iff_of_false (fun q => h ((State.eligible_iff s p).2 q)) fun q => ?_
    exact displaced_not_granted y ((granted_congr (seated_displace hd hy hx hn)).1 q)

/-- Prompts without a page record reviewed one after the other: the table's other prompts stay, and those are granted exactly where
they are eligible. -/
theorem reviewSlots_leave (ps : List Prompt) : ∀ {s : State}, slotsDistinct s →
    (∀ p ∈ ps, p.page = none ∧ ∃ y ∈ s.ptb.prompts, y.posted = p.posted) →
    RegionAlike s (ps.foldl State.reviewSlot s) ∧ ∀ x ∈ (ps.foldl State.reviewSlot s).ptb.prompts,
      (x.slot ∉ ps.map (·.slot) → x ∈ s.ptb.prompts) ∧
      (x.slot ∈ ps.map (·.slot) → (mayPresent s x ↔ ∃ a, x.state = .granted a)) := by
  induction ps with
  | nil => exact fun _ _ => ⟨.refl _, fun x hx => ⟨fun _ => hx, fun h => nomatch h⟩⟩
  | cons p ps ih =>
    intro s hd hps
    obtain ⟨hpage, y, hy, hp⟩ := hps p (List.mem_cons_self ..)
    have hm := SlotMoved.reviewSlot s p
    have ha : RegionAlike s (s.reviewSlot p) := .of_slotMoved hm fun x hx e => by
      rw [eq_of_slot hd hx hy (e.trans (slot_of_posted hp).symm), page_of_posted hp, hpage]
    obtain ⟨hb, hrest⟩ := ih (ha.distinct hd) fun q hq => by
      obtain ⟨hqp, z, hz, e⟩ := hps q (List.mem_cons_of_mem _ hq)
      obtain ⟨w, hw, e'⟩ := mem_of_posted ha.prompts.symm hz
      exact ⟨hqp, w, hw, e'.trans e⟩
    refine ⟨ha.trans hb, fun x hx => ?_⟩
    obtain ⟨hout, hin⟩ := hrest x hx
    rw [List.map_cons, List.mem_cons]
    refine ⟨fun hn => ?_, fun hn => ?_⟩
    · rw [not_or] at hn
      exact (hm.mem_iff hn.1).1 (hout hn.2)
    · by_cases hps' : x.slot ∈ ps.map (·.slot)
      · exact (mayPresent_congr ha.scu rfl).symm.trans (hin hps')
      · have hslot := hn.resolve_right hps'
        have hx' := hout hps'
        obtain ⟨z, hz, e⟩ := mem_of_posted ha.prompts hx'
        have hzy := eq_of_slot hd hz hy ((slot_of_posted e).trans (hslot.trans (slot_of_posted hp).symm))
        have hxp : x.posted = p.posted := by rw [← e, hzy, hp]
        exact (mayPresent_congr rfl hxp).trans (granted_reviewSlot hd hy hp hx' hslot)

/-- The review of a side's prompts without a page record. -/
theorem reviewPageless_leaves {s : State} (hd : slotsDistinct s) (sd : Side) : RegionAlike s (s.reviewPageless sd) ∧
    ∀ x ∈ (s.reviewPageless sd).ptb.prompts, x.side = sd → x.page = none → (mayPresent s x ↔ ∃ a, x.state = .granted a) := by
  rw [reviewPageless_eq]
  obtain ⟨ha, hx⟩ := reviewSlots_leave (s.ptb.prompts.filter fun p => decide (p.side = sd) && p.page.isNone) hd fun p hp => by
    simp only [List.mem_filter, Bool.and_eq_true, Option.isNone_iff_eq_none] at hp
    exact ⟨hp.2.2, p, hp.1, rfl⟩
  refine ⟨ha, fun x hx' hs hp => (hx x hx').2 ?_⟩
  obtain ⟨y, hy, e⟩ := mem_of_posted ha.prompts hx'
  refine List.mem_map.2 ⟨y, ?_, slot_of_posted e⟩
  simp [List.mem_filter, hy, side_of_posted e, hs, page_of_posted e, hp]

/-- `t` has no prompt without a page record that `s` has not. -/
def pagelessKept (s t : State) : Prop := ∀ x ∈ t.ptb.prompts, x.page = none → x ∈ s.ptb.prompts

theorem pagelessKept.trans {s t u : State} (h : pagelessKept s t) (k : pagelessKept t u) : pagelessKept s u :=
  fun x hx hp => h x (k x hx hp) hp

/-- A grant or displacement of a prompt with a page record. -/
theorem pagelessKept_of_slotMoved {s t : State} (hd : slotsDistinct s) {y : Prompt} (hy : y ∈ s.ptb.prompts) (hp : y.page.isSome = true)
    (h : SlotMoved y.slot s t) : pagelessKept s t := by
  intro x hx hn
  refine (h.mem_iff fun e => ?_).1 hx
  obtain ⟨z, hz, e'⟩ := mem_of_posted h.presents.prompts hx
  rw [← eq_of_slot hd hz hy ((slot_of_posted e').trans e), page_of_posted e', hn] at hp
  cases hp

theorem pagelessKept_install {v : State} (hd : slotsDistinct v) (sd : Side) {y : Prompt} (hy : y ∈ v.ptb.prompts)
    (hp : y.page.isSome = true) : pagelessKept v (v.install sd y) := by
  have h : pagelessKept (v.onSchedule sd fun x => { x with owner := some y.slot })
      ((v.onSchedule sd fun x => { x with owner := some y.slot }).grantPrompt y.slot) :=
    pagelessKept_of_slotMoved hd hy hp (.grantPrompt _ _)
  intro x hx
  unfold State.install at hx
  rw [showContent_frame] at hx
  exact h x hx

theorem pagelessKept_installTop {v : State} (hd : slotsDistinct v) (sd : Side) : pagelessKept v (v.installTop sd) := by
  unfold State.installTop
  cases hy : v.regionTop sd with
  | none =>
    intro x hx _
    dsimp only at hx
    rwa [ptb_vacate] at hx
  | some y =>
    obtain ⟨hm, -, hp, -⟩ := (mem_regionCandidates_iff v sd y).1 (mem_of_topRanked hy)
    exact pagelessKept_install hd sd hm hp

/-- A choice leaves the prompts without a page record as they are. -/
theorem pagelessKept_chooseRegion {s : State} (ho : regionsOwned s) (sd : Side) : pagelessKept s (s.chooseRegion sd) := by
  have hgone : ∀ x ∈ s.ptb.prompts, (s.schedule sd).owner = some x.slot →
      pagelessKept s ((s.displace x.slot).setLastOwner sd x.owner) := fun x hx h => by
    obtain ⟨-, hp, -⟩ := owner_spec ho hx h
    exact (pagelessKept_of_slotMoved ho.1 hx hp (.displace s x.slot) : pagelessKept s (s.displace x.slot))
  refine chooseRegion_cases ho sd ?_ ?_ ?_ ?_
  · exact fun _ => pagelessKept_installTop ho.1 sd
  · exact fun _ _ _ _ _ _ hx _ => hx
  · intro x hx y hy h _ ht hne
    obtain ⟨-, -, hp, -⟩ := (mem_regionCandidates_iff s sd y).1 (mem_of_topRanked ht)
    exact (hgone x hx h).trans (pagelessKept_install (OwnerGone.of_displaced ho hx h x.owner).distinct sd
      (((SlotMoved.displace s x.slot).mem_iff hne).2 hy) hp)
  · intro x hx h _
    exact (hgone x hx h).trans (pagelessKept_installTop (OwnerGone.of_displaced ho hx h x.owner).distinct sd)

/-! ### A holder changed (R32, R33, R35) -/

/-- Where a side's holder changed, the model reviews the side. -/
theorem holderChanged_reviewed {s t : State} (ho : regionsOwned s) (h : RegionAlike s t) (sd : Side) :
    sideReviewed s (t.holderChanged sd) sd := by
  have hot := h.owned ho
  obtain ⟨ha, hg⟩ := reviewPageless_leaves hot.1 sd
  have hou := ha.owned hot
  obtain ⟨last, hc⟩ := chooseRegion_chosen hou sd
  have hk : SpeechAlone ((t.reviewPageless sd).chooseRegion sd) (t.holderChanged sd) := .settle _
  refine ⟨⟨last, regionChosen_speech (regionChosen_of_alike ho (h.trans ha) hc) hk⟩, fun x hx hs hp => ?_⟩
  obtain ⟨y, hy, e⟩ := mem_of_seated hk.prompts hx
  have e' := posted_of_seated e
  have hyp : y.page = none := (page_of_posted e').trans hp
  have hy' := pagelessKept_chooseRegion hou sd y hy hyp
  calc mayPresent s x ↔ mayPresent t y := (mayPresent_congr h.scu e').symm
    _ ↔ ∃ a, y.state = .granted a := hg y hy' ((side_of_posted e').trans hs) hyp
    _ ↔ ∃ a, x.state = .granted a := granted_congr e

end Sys2Proof.Machine
end

section
/-! RELEASE SIDE and the lapse of a hold (O29). -/

namespace Sys2Proof.Machine

open Sys2Proof.Claims

/-! ### A side freed (R65, R66) -/

/-- Beside the freed hold, a release turns to the link and notes an overtaken lapse only. -/
theorem RegionAlike.holdReleased (s : State) (p : Port) (sd : Side) :
    RegionAlike (s.onHold sd fun _ => ⟨none, none⟩) (holdReleased (receiving s p .hunt) sd) :=
  ⟨rfl, rfl, rfl, rfl, fun _ => rfl, rfl, rfl⟩

/-- A notice is nothing that a choice of regions looks at. -/
theorem RegionAlike.offer (s : State) (p : Port) (n : Notice) : RegionAlike s (s.offer p n) := by
  unfold State.offer
  split
  · exact ⟨rfl, rfl, rfl, rfl, fun _ => rfl, rfl, rfl⟩
  · exact .refl s

theorem exec_releaseSide (s : State) (p : Port) (q b : Byte) :
    exec (.releaseSide p q b) s = .next (s.requestArrives p q (.releaseSide b)) := rfl

theorem exec_holdLapse (s : State) (sd : Side) : exec (.holdLapse sd) s = .next (s.lapseOut sd) := rfl

theorem releaseSide_notHolder {s : State} {p : Port} {b : Byte} {sd : Side} (q : Byte) (h : ready s p 0x25) (hb : sideOf b = some sd)
    (hr : roleReachesSide (s.link p).role sd = true) (hh : (s.records sd).hold.holder ≠ some p) :
    s.requestArrives p q (.releaseSide b) = answered s p 0x25 q .notHolder [] := by
  refine requestArrives_unchanged (r := .releaseSide b) q h rfl ?_
  exact (withSide_reached hb hr _).trans (if_neg hh)

theorem releaseSide_holder {s : State} {p : Port} {b : Byte} {sd : Side} (q : Byte) (h : ready s p 0x25) (hb : sideOf b = some sd)
    (hr : roleReachesSide (s.link p).role sd = true) (hh : (s.records sd).hold.holder = some p) :
    s.requestArrives p q (.releaseSide b) =
      repliedWork ((holdReleased (receiving s p .hunt) sd).holderChanged sd) p 0x25 q .ok [] := by
  refine requestArrives_ready (r := .releaseSide b) q h rfl ?_ (Presents.holderChanged _ sd).lnk
  exact (withSide_reached hb hr _).trans (if_pos hh)

/-- A response is nothing of a side. -/
theorem sideReviewed_repliedWork {s t : State} {sd : Side} (h : sideReviewed s t sd) (p : Port) (code seq : Byte) (st : Status)
    (body : List Byte) : sideReviewed s (repliedWork t p code seq st body) sd := by
  obtain ⟨⟨last, hc⟩, hg⟩ := h
  exact ⟨⟨last, { hc with }⟩, hg⟩

theorem lapseOut_overtaken {s : State} {sd : Side} (h : (s.overtaken.get sd).lapse = true) :
    s.lapseOut sd = s.onOvertaken sd fun o => { o with lapse := false } := if_pos h

theorem lapseOut_idle {s : State} {sd : Side} (h : (s.overtaken.get sd).lapse = false)
    (hi : (s.records sd).hold.holder = none ∨ s.stu.flag = true) : s.lapseOut sd = s := by
  unfold State.lapseOut
  rw [h, if_neg Bool.false_ne_true]
  cases hh : (s.records sd).hold.holder with
  | none => rfl
  | some p => exact if_pos (hi.resolve_left (by rw [hh]; exact nofun))

theorem lapseOut_fires {s : State} {sd : Side} {p : Port} (hh : (s.records sd).hold.holder = some p) (hf : s.stu.flag = false)
    (h : (s.overtaken.get sd).lapse = false) : s.lapseOut sd =
      ((s.onHold sd fun _ => ⟨none, none⟩).offer p ⟨.holdLapsed, some sd, none, 0, 0, false⟩).holderChanged sd := by
  unfold State.lapseOut
  rw [h, hh, if_neg Bool.false_ne_true]
  exact if_neg (by rw [hf]; exact Bool.false_ne_true)

/-- Settles O29: a side freed is alike to the part with the hold gone, so that its prompts are reviewed by its records. -/
theorem sideFreed : Obligations.SideFreed := by
  refine ⟨fun s p q b sd h hb hr => ⟨fun hh => ?_, fun hh => ?_⟩, fun s sd => ⟨fun h => ?_, fun h hi => ?_, fun p hh hf h => ?_⟩⟩
  · rw [exec_releaseSide, releaseSide_notHolder q h hb hr hh]
  · refine ⟨_, (exec_releaseSide s p q b).trans (congrArg _ (releaseSide_holder q h hb hr hh)), ?_, rfl, fun ho => ?_⟩
    · rw [answered_eq]
      exact (Presents.holderChanged (holdReleased (receiving s p .hunt) sd) sd).repliedWork ..
    · exact sideReviewed_repliedWork (holderChanged_reviewed (s := s.onHold sd fun _ => ⟨none, none⟩) ho (.holdReleased s p sd) sd) ..
  · rw [exec_holdLapse, lapseOut_overtaken h]
  · rw [exec_holdLapse, lapseOut_idle h hi]
  · exact ⟨_, (exec_holdLapse s sd).trans (congrArg _ (lapseOut_fires hh hf h)), .holderChanged _ sd, rfl, fun ho =>
      holderChanged_reviewed (s := s.onHold sd fun _ => ⟨none, none⟩) ho (.offer _ p _) sd⟩

end Sys2Proof.Machine
end

section
/-! What a step may do to the records of the sides and to the panel's power state, and that this keeps them consistent (O59). -/

namespace Sys2Proof.Machine

open Sys2Proof.Claims

/-! ### What a step may do -/

/-- The part of the state that the invariants of the side records and of the panel's power speak of. -/
structure SideView where
  scu : PerSide SideRecords
  cfg : Configuration
  power : Power
  panelOff : Option Counting
  settling : Option Nat

/-- That part of a state. -/
def State.sideView (s : State) : SideView := ⟨s.scu, s.cfg, s.dsp.power, s.dsp.panelOff, s.dsp.settling⟩

/-- What can become of a session record under a configuration (R54, R56, R57, R59, R61). -/
inductive SessionGoes (c : Configuration) (x : Session) : Session → Prop
  | restarts (t : Counting) (h : x.active = true) : SessionGoes c x { x with idle := some t }
  | begins (t : Counting) : SessionGoes c x { x with active := true, idle := some t }
  | language (l : Fin 4) (h : x.active = true) : SessionGoes c x { x with language := l }
  | mode (m : SpeechMode) (h : x.active = true) : SessionGoes c x { x with mode := m }
  | ends : SessionGoes c x ⟨false, c.language, c.mode, c.volume, none⟩

/-- What can become of a hold record (R64 to R67). -/
inductive HoldGoes : HoldRecord → Prop
  | held (p : Port) (t : Counting) : HoldGoes ⟨some p, some t⟩
  | freed : HoldGoes ⟨none, none⟩

/-- What can become of a cycle record (R69, R70, R74). -/
inductive CycleGoes (c : Cycle) : Cycle → Prop
  | written (ph : Option Phase) (n : Option Nat) (r : Option Bool) (h : ∀ m, n = some m → m ≤ Config.maxCountdown) :
      CycleGoes c (c.written ph n r)
  | falls (h : c.running = true) : CycleGoes c c.fallen
  | resets : CycleGoes c ⟨.idle, 0, false, none⟩

/-- What can become of the panel's power state and its timers (R152). -/
inductive PanelGoes (d : Display) : Display → Prop
  | brightens (h : d.power = .dim) : PanelGoes d d.brightened
  | wakes (h : d.power = .off) : PanelGoes d { d with power := .settling, settling := some 0 }
  | dims (t : Counting) (h : d.power = .on) : PanelGoes d { d with power := .dim, panelOff := some t }
  | settlesLit (h : d.power = .settling) : PanelGoes d { d with settling := none, power := .on }
  | settlesDim (t : Counting) (h : d.power = .settling) : PanelGoes d { d with settling := none, power := .dim, panelOff := some t }
  | darkens (h : d.power = .dim) : PanelGoes d { d with power := .off, panelOff := none }

/-- All that commands and the time base do to the records of the sides, the house values and the panel's power state. -/
inductive SideMoves : State → State → Prop
  | same {s t : State} (h : t.sideView = s.sideView) : SideMoves s t
  | trans {s t u : State} (h : SideMoves s t) (k : SideMoves t u) : SideMoves s u
  | session {s : State} (sd : Side) (f : Session → Session) (h : SessionGoes s.cfg (s.records sd).session (f (s.records sd).session)) :
      SideMoves s (s.onSession sd f)
  | hold {s : State} (sd : Side) (f : HoldRecord → HoldRecord) (h : HoldGoes (f (s.records sd).hold)) : SideMoves s (s.onHold sd f)
  | cycle {s : State} (sd : Side) (f : Cycle → Cycle) (h : CycleGoes (s.records sd).cycle (f (s.records sd).cycle)) :
      SideMoves s (s.onCycle sd f)
  | panel {s : State} (d : Display) (h : PanelGoes s.dsp d) : SideMoves s { s with dsp := d }
  | configured (s : State) (c : Configuration) : SideMoves s (configured s c)
  | tick (s : State) : SideMoves s s.tick
  | reset {s t : State} (h : t.sideView = State.reset.sideView) : SideMoves s t

theorem SideMoves.refl (s : State) : SideMoves s s := .same rfl

/-- What is done after a change elsewhere in the state. -/
theorem SideMoves.of_same {s t u : State} (k : SideMoves t u) (h : t.sideView = s.sideView) : SideMoves s u := .trans (.same h) k

/-- Presentation leaves the sides and the panel's power. -/
theorem Presents.sideView {s t : State} (h : Presents s t) : t.sideView = s.sideView := by
  have hd := h.display
  unfold State.sideView
  rw [h.scu, h.cfg]
  generalize t.dsp = d at *
  rw [← hd]

theorem SideMoves.presents {s t : State} (h : Presents s t) : SideMoves s t := .same h.sideView

/-! ### The invariants are kept -/

/-- A cycle record is consistent (R68 to R70). -/
def cycleOk (c : Cycle) : Prop :=
  c.countdown ≤ 35999 ∧ (c.running = true ↔ c.second.isSome = true) ∧ (c.running = true → c.countdown ≠ 0)

/-- A session record is consistent with the house values (R52, R53). -/
def sessionOk (c : Configuration) (x : Session) : Prop :=
  (x.active = false → x.language = c.language ∧ x.mode = c.mode ∧ x.volume = c.volume) ∧ (x.active = true ↔ x.idle.isSome = true)

/-- A hold record is consistent (R63). -/
def holdOk (x : HoldRecord) : Prop := x.holder.isSome = true ↔ x.lapse.isSome = true

/-- The panel's power state and its timers agree (R152). -/
def panelOk (d : Display) : Prop :=
  (d.power = .dim ↔ d.panelOff.isSome = true) ∧ (d.power = .settling ↔ d.settling.isSome = true)

theorem cyclesConsistent_iff (s : State) : cyclesConsistent s ↔ ∀ sd, cycleOk (s.records sd).cycle := Iff.rfl

theorem sidesConsistent_iff (s : State) :
    sidesConsistent s ↔ ∀ sd, sessionOk s.cfg (s.records sd).session ∧ holdOk (s.records sd).hold :=
  forall_congr' fun _ => and_assoc.symm

theorem panelConsistent_iff (s : State) : panelConsistent s ↔ panelOk s.dsp := Iff.rfl

theorem CycleGoes.ok {c d : Cycle} (h : CycleGoes c d) (hc : cycleOk c) : cycleOk d := by
  obtain ⟨hm, hs, hz⟩ := hc
  cases h with
  | written ph n r hn =>
    unfold Cycle.written
    refine ⟨?_, ?_, ?_⟩
    · cases n with
      | none => exact hm
      | some m => exact hn m rfl
    · cases n <;> cases r with
      | none => cases hr : c.running <;> simp_all
      | some r => cases r <;> cases hr : c.running <;> simp_all
    · simp
  | falls hr =>
    unfold Cycle.fallen
    refine ⟨?_, ?_, ?_⟩
    · show c.countdown - 1 ≤ _
      omega
    · by_cases e : c.countdown - 1 = 0 <;> simp [e]
    · simp
  | resets => exact ⟨Nat.zero_le _, by decide, nofun⟩

theorem SessionGoes.ok {c : Configuration} {x y : Session} (h : SessionGoes c x y) (hx : sessionOk c x) : sessionOk c y := by
  obtain ⟨hv, hi⟩ := hx
  cases h with
  | restarts t ha => exact ⟨hv, by simp [ha]⟩
  | begins t => exact ⟨nofun, by simp⟩
  | language l ha => exact ⟨fun h => absurd (ha.symm.trans h) (by decide), hi⟩
  | mode m ha => exact ⟨fun h => absurd (ha.symm.trans h) (by decide), hi⟩
  | ends => exact ⟨fun _ => ⟨rfl, rfl, rfl⟩, by simp⟩

theorem HoldGoes.ok {x : HoldRecord} (h : HoldGoes x) : holdOk x := by
  cases h <;> simp [holdOk]

theorem PanelGoes.ok {d e : Display} (h : PanelGoes d e) (hd : panelOk d) : panelOk e := by
  obtain ⟨hp, hs⟩ := hd
  cases h <;> simp_all [panelOk, Display.brightened]

/-- The time base moves no timer into or out of its record (R56, R66, R70). -/
theorem tick_ok {c : Configuration} {r : SideRecords} (frozen : Bool) :
    (cycleOk r.cycle → cycleOk (r.tick frozen).cycle) ∧
    (sessionOk c r.session ∧ holdOk r.hold → sessionOk c (r.tick frozen).session ∧ holdOk (r.tick frozen).hold) := by
  have hf : ∀ t, (freezable frozen t).isSome = t.isSome := fun t => by
    unfold freezable
    split
    · rfl
    · exact Option.isSome_map
  unfold SideRecords.tick cycleOk sessionOk holdOk
  simp only [Option.isSome_map, hf]
  exact ⟨id, id⟩

/-- House values taken by a side (R53). -/
theorem housed_ok {c c' : Configuration} {r : SideRecords} (h : sessionOk c r.session) : sessionOk c' (housed c' r).session := by
  obtain ⟨-, hi⟩ := h
  unfold housed
  split
  · rename_i ha
    exact ⟨fun h => absurd (ha.symm.trans h) (by decide), hi⟩
  · exact ⟨fun _ => ⟨rfl, rfl, rfl⟩, hi⟩

theorem records_tick (s : State) (sd : Side) : s.tick.records sd = (s.records sd).tick s.stu.flag := PerSide.get_mapAll s.scu _ sd

theorem records_configured (s : State) (c : Configuration) (sd : Side) :
    (configured s c).records sd = housed c (s.records sd) := by
  rw [configured_eq]
  cases sd <;> rfl

theorem records_onSession_eq (s : State) (sd sd' : Side) (f : Session → Session) : (s.onSession sd f).records sd' =
    if sd' = sd then { s.records sd' with session := f (s.records sd').session } else s.records sd' := PerSide.get_update s.scu sd sd' _

theorem records_onHold_eq (s : State) (sd sd' : Side) (f : HoldRecord → HoldRecord) : (s.onHold sd f).records sd' =
    if sd' = sd then { s.records sd' with hold := f (s.records sd').hold } else s.records sd' := PerSide.get_update s.scu sd sd' _

theorem records_onCycle_eq (s : State) (sd sd' : Side) (f : Cycle → Cycle) : (s.onCycle sd f).records sd' =
    if sd' = sd then { s.records sd' with cycle := f (s.records sd').cycle } else s.records sd' := PerSide.get_update s.scu sd sd' _

theorem records_of_sideView {s t : State} (h : t.sideView = s.sideView) : t.records = s.records := by
  unfold State.records
  rw [show t.scu = s.scu from congrArg SideView.scu h]

theorem cfg_of_sideView {s t : State} (h : t.sideView = s.sideView) : t.cfg = s.cfg := congrArg SideView.cfg h

theorem SideMoves.cyclesConsistent {s t : State} (h : SideMoves s t) (hs : cyclesConsistent s) : cyclesConsistent t := by
  induction h with
  | same h => exact fun sd => by rw [records_of_sideView h]; exact hs sd
  | trans _ _ ih ik => exact ik (ih hs)
  | session sd f _ => exact fun sd' => by rw [records_onSession_eq]; split <;> exact hs sd'
  | hold sd f _ => exact fun sd' => by rw [records_onHold_eq]; split <;> exact hs sd'
  | cycle sd f h =>
    intro sd'
    rw [records_onCycle_eq]
    split
    · rename_i e
      subst e
      exact h.ok (hs sd')
    · exact hs sd'
  | panel d _ => exact hs
  | configured s c =>
    intro sd
    rw [records_configured]
    unfold housed
    split <;> exact hs sd
  | tick s => exact fun sd => by rw [records_tick]; exact (tick_ok (c := s.cfg) _).1 (hs sd)
  | reset h => exact fun sd => by rw [records_of_sideView h]; exact reset_cyclesConsistent sd

theorem SideMoves.sidesConsistent {s t : State} (h : SideMoves s t) (hs : sidesConsistent s) : sidesConsistent t := by
  rw [sidesConsistent_iff] at *
  induction h with
  | same h => rw [records_of_sideView h, cfg_of_sideView h]; exact hs
  | trans _ _ ih ik => exact ik (ih hs)
  | session sd f h =>
    intro sd'
    rw [records_onSession_eq]
    split
    · rename_i e
      subst e
      exact ⟨h.ok (hs sd').1, (hs sd').2⟩
    · exact hs sd'
  | hold sd f h =>
    intro sd'
    rw [records_onHold_eq]
    split
    · rename_i e
      subst e
      exact ⟨(hs sd').1, h.ok⟩
    · exact hs sd'
  | cycle sd f _ => exact fun sd' => by rw [records_onCycle_eq]; split <;> exact hs sd'
  | panel d _ => exact hs
  | configured s c =>
    intro sd
    rw [records_configured]
    refine ⟨housed_ok (hs sd).1, ?_⟩
    unfold housed
    split <;> exact (hs sd).2
  | tick s => exact fun sd => by rw [records_tick]; exact (tick_ok _).2 (hs sd)
  | reset h =>
    rw [records_of_sideView h, cfg_of_sideView h]
    exact (sidesConsistent_iff _).1 reset_sidesConsistent

theorem panelConsistent_of_sideView {s t : State} (h : t.sideView = s.sideView) (hs : panelConsistent s) : panelConsistent t := by
  unfold panelConsistent at *
  rwa [show t.dsp.power = _ from congrArg SideView.power h, show t.dsp.panelOff = _ from congrArg SideView.panelOff h,
    show t.dsp.settling = _ from congrArg SideView.settling h]

theorem SideMoves.panelConsistent {s t : State} (h : SideMoves s t) (hs : panelConsistent s) : panelConsistent t := by
  induction h with
  | same h => exact panelConsistent_of_sideView h hs
  | trans _ _ ih ik => exact ik (ih hs)
  | session | hold | cycle | configured => exact hs
  | panel d h => exact h.ok hs
  | tick s =>
    unfold Claims.panelConsistent State.tick Display.tick at *
    simpa using hs
  | reset h => exact panelConsistent_of_sideView h reset_panelConsistent

end Sys2Proof.Machine
end

section
/-! What each command does to the records of the sides and to the panel's power state (O59). -/

namespace Sys2Proof.Machine

open Sys2Proof.Claims

/-! ### Sessions and the panel's power (R54 to R61, R152) -/

theorem SideMoves.sideActive (s : State) : SideMoves s s.sideActive := by
  unfold State.sideActive
  split
  · rename_i h
    exact .panel _ (.brightens h)
  · rename_i h
    exact (SideMoves.panel _ (.wakes h)).trans (.presents ((Presents.startRender _ .lower).trans (.startRender _ .upper)))
  · exact .refl s
  · exact .refl s

theorem SideMoves.sideAsleep (s : State) : SideMoves s s.sideAsleep := by
  unfold State.sideAsleep
  split
  · rename_i h
    split
    · exact .refl s
    · exact .panel _ (.dims _ h)
  · exact .refl s
  · exact .refl s
  · exact .refl s

theorem SideMoves.settlingOut (s : State) : SideMoves s s.settlingOut := by
  unfold State.settlingOut State.settled
  split
  · rename_i h
    simp only
    split
    · exact .panel _ (.settlesLit h)
    · exact .panel _ (.settlesDim _ h)
  · exact .refl s

theorem SideMoves.darken (s : State) : SideMoves s s.darken := by
  unfold State.darken
  split
  · exact .same rfl
  · split
    · rename_i h
      exact .panel _ (.darkens h)
    · exact .refl s

theorem SideMoves.beginSession (s : State) (sd : Side) : SideMoves s (s.beginSession sd) := by
  have h : ((s.onSession sd fun x => { x with active := true }).startIdle sd) =
      s.onSession sd fun x => { x with active := true, idle := some ⟨0, s.cfg.idleTimeout⟩ } := by cases sd <;> rfl
  unfold State.beginSession
  simp only [h]
  exact ((SideMoves.session sd _ (.begins _)).trans (.presents (.offerMasked _ _))).trans (.sideActive _)

theorem SideMoves.restartIdle {s : State} {sd : Side} (h : (s.records sd).session.active = true) : SideMoves s (s.restartIdle sd) :=
  (SideMoves.session sd (fun x => { x with idle := some ⟨0, s.cfg.idleTimeout⟩ }) (.restarts _ h)).trans
    (.same (t := idleRestarted s sd) rfl)

theorem SideMoves.sessionEvent (s : State) (sd : Side) : SideMoves s (s.sessionEvent sd) := by
  unfold State.sessionEvent
  split
  · rename_i h
    exact .restartIdle h
  · exact .beginSession s sd

theorem SideMoves.wakeForPrompt (s : State) (sd : Side) : SideMoves s (s.wakeForPrompt sd) := by
  unfold State.wakeForPrompt
  split
  · exact .refl s
  · exact .beginSession s sd

theorem SideMoves.putLanguage {s : State} {sd : Side} (h : (s.records sd).session.active = true) (l : Fin 4) :
    SideMoves s (s.putLanguage sd l) := by
  unfold State.putLanguage
  split
  · exact .refl s
  · exact (SideMoves.session sd _ (.language l h)).trans (.presents (.languageChanged _ sd))

theorem Presents.modeSet (s : State) (sd : Side) (m : SpeechMode) :
    Presents (s.onSession sd fun x => { x with mode := m }) (modeSet s sd m) := by
  unfold Claims.modeSet
  simp only [sideSpoken_eq, replayCleared_eq]
  split
  · exact ((Presents.deliverSide _ sd).trans (.clearReplay _ sd)).trans (.settle _)
  · exact .settle _

theorem SideMoves.putMode {s : State} {sd : Side} (h : (s.records sd).session.active = true) (m : SpeechMode) :
    SideMoves s (s.putMode sd m) := by
  by_cases e : (s.records sd).session.mode = m
  · unfold State.putMode State.modeOf
    rw [if_pos e]
    exact .refl s
  · rw [State.putMode_eq e]
    exact (SideMoves.session sd _ (.mode m h)).trans (.presents (.modeSet s sd m))

/-! ### Closures (R24) -/

theorem sideView_removePrompt (s : State) (p : Prompt) : (s.removePrompt p).sideView = s.sideView :=
  (((Presents.stopSpan (s.cancelTimers p) p.slot).trans (.dropReplay _ p.side p.slot)).trans (.leaveRegion _ p)).sideView

theorem sideView_closeNoChoice (s : State) (p : Prompt) (o : Closing) : (s.closeNoChoice p o).sideView = s.sideView :=
  (Presents.offer _ _ _).sideView.trans (sideView_removePrompt s p)

theorem sideView_closePrompt (s : State) (n : Nat) (o : Closing) : (s.closePrompt n o).sideView = s.sideView := by
  unfold State.closePrompt
  split
  · rfl
  · rename_i p _
    exact ((Presents.chooseRegion _ p.side).trans (.settle _)).sideView.trans (sideView_closeNoChoice s p o)

theorem sideView_foldl {α : Type} {f : State → α → State} (h : ∀ s a, (f s a).sideView = s.sideView) :
    ∀ (l : List α) (s : State), (l.foldl f s).sideView = s.sideView
  | [], _ => rfl
  | a :: l, s => (sideView_foldl h l (f s a)).trans (h s a)

theorem sideView_removeOwned (s : State) (p : Port) : (s.removeOwned p).sideView = s.sideView :=
  (((Presents.chooseAfter _ _ .lower).trans (.chooseAfter _ _ .upper)).trans (.settle _)).sideView.trans
    (sideView_foldl sideView_removePrompt _ s)

/-- A session's end as one change of the session record, the panel and presentation (R57). -/
theorem SideMoves.endSession (s : State) (sd : Side) (cause : EndCause) : SideMoves s (s.endSession sd cause) := by
  unfold State.endSession
  simp only
  generalize hu : (State.sessionPrompts _ sd).foldl _ _ = u
  have hv : u.sideView = (s.onSession sd fun x => { x with active := false, idle := none }).sideView := by
    rw [← hu]
    exact sideView_foldl (fun s n => sideView_closePrompt s n .unanswered) _ _
  have hc : u.cfg = s.cfg := congrArg SideView.cfg hv
  have he : (u.onSession sd (houseSession u.cfg)).sideView =
      (s.onSession sd fun _ => ⟨false, s.cfg.language, s.cfg.mode, s.cfg.volume, none⟩).sideView := by
    rw [hc]
    unfold State.sideView State.onSession at *
    simp only [SideView.mk.injEq] at hv ⊢
    obtain ⟨h1, h2, h3, h4, h5⟩ := hv
    refine ⟨?_, h2, h3, h4, h5⟩
    rw [h1, PerSide.update_update]
    rfl
  refine ((SideMoves.session sd (fun _ => ⟨false, s.cfg.language, s.cfg.mode, s.cfg.volume, none⟩) .ends).trans (.same he)).trans
    (((SideMoves.presents (.offerMasked _ (endedNotice sd cause))).trans (.sideAsleep _)).trans (.presents ?_))
  refine Presents.trans ?_ ((Presents.softMode _ sd _).trans (.settle _))
  split
  · exact .languageChanged _ sd
  · exact .refl _

end Sys2Proof.Machine
end

section
/-! Every step keeps the records of the sides and the panel's power state consistent (O59). -/

namespace Sys2Proof.Machine

open Sys2Proof.Claims

/-! ### Holds and cycle records (R64 to R74) -/

theorem SideMoves.putHolder (s : State) (sd : Side) (p : Port) : SideMoves s (s.putHolder sd p) := .hold sd _ (.held p _)

theorem SideMoves.freeHold (s : State) (sd : Side) : SideMoves s (s.freeHold sd) :=
  .of_same ((SideMoves.hold (s := s.overtakeLapse sd) sd (fun _ => ⟨none, none⟩) .freed).trans (.presents (.holderChanged _ sd))) rfl

theorem SideMoves.freeHeld (s : State) (p : Port) (sd : Side) : SideMoves s (s.freeHeld p sd) := by
  unfold State.freeHeld
  split
  · exact (SideMoves.freeHold s sd).trans
      (.presents (((Presents.chooseRegion _ .lower).trans (.chooseRegion _ .upper)).trans (.settle _)))
  · exact .refl s

theorem SideMoves.lapseOut (s : State) (sd : Side) : SideMoves s (s.lapseOut sd) := by
  unfold State.lapseOut
  split
  · exact .same rfl
  · split
    · split
      · exact .refl s
      · exact (SideMoves.hold sd _ .freed).trans (.presents ((Presents.offer _ _ _).trans (.holderChanged _ sd)))
    · exact .refl s

theorem SideMoves.putCycle {s : State} {sd : Side} {c : Cycle} (h : CycleGoes (s.records sd).cycle c) (l : List Port) :
    SideMoves s (s.putCycle sd c l) := by
  refine .of_same ((SideMoves.cycle (s := s.overtakeSecond sd c) sd (fun _ => c) h).trans (.presents ?_)) rfl
  have ho : ∀ u : State, Presents u (if c.phase = (s.records sd).cycle.phase then u
      else u.offerEach (l.filter fun p => maskEnables (u.nq.get p).mask (phaseNotice sd (s.records sd).cycle.phase c.phase).kind)
        (phaseNotice sd (s.records sd).cycle.phase c.phase)) := by
    intro u
    split
    · exact .refl u
    · exact .offerEach u _ _
  have hc : ∀ u : State, Presents u (if c.countdown = (s.records sd).cycle.countdown then u else u.countdownChanged sd) := by
    intro u
    split
    · exact .refl u
    · exact .countdownChanged u sd
  exact (ho _).trans (hc _)

theorem SideMoves.secondOut (s : State) (sd : Side) : SideMoves s (s.secondOut sd) := by
  unfold State.secondOut
  split
  · exact .same rfl
  · split
    · rename_i h
      unfold State.fallCountdown
      refine (SideMoves.cycle sd (fun _ => (s.records sd).cycle.fallen) (.falls h)).trans (.presents ?_)
      simp only
      refine Presents.trans ?_ (.countdownChanged _ sd)
      split
      · exact .offerMasked _ _
      · exact .refl _
    · exact .refl s

/-! ### Requests of a side (R55 to R74) -/

/-- A side request does what its block does on a side, or nothing. -/
theorem SideMoves.withSide {s : State} {f : Side → Reply × State} (h : ∀ sd, SideMoves s (f sd).2) (p : Port) (b : Byte) :
    SideMoves s (s.withSide p b f).2 := by
  unfold State.withSide
  split
  · exact .refl s
  · exact h _

theorem SideMoves.setLanguage (s : State) (p : Port) (b l : Byte) : SideMoves s (s.setLanguage p b l).2 := by
  refine .withSide (fun sd => ?_) p b
  split
  · exact .refl s
  · split
    · rename_i h
      exact .putLanguage h _
    · exact .refl s

theorem SideMoves.setSpeechMode (s : State) (p : Port) (b m : Byte) : SideMoves s (s.setSpeechMode p b m).2 := by
  refine .withSide (fun sd => ?_) p b
  split
  · exact .refl s
  · split
    · rename_i h
      exact .putMode h _
    · exact .refl s

theorem SideMoves.stopSession (s : State) (p : Port) (b : Byte) : SideMoves s (s.stopSession p b).2 := by
  refine .withSide (fun sd => ?_) p b
  split
  · exact .of_same (.endSession (s.overtakeIdle sd) sd _) rfl
  · exact .refl s

theorem SideMoves.claimSide (s : State) (p : Port) (b : Byte) : SideMoves s (s.claimSide p b).2 := by
  refine .withSide (fun sd => ?_) p b
  simp only
  split
  · exact (SideMoves.putHolder s sd p).trans (.presents (.holderChanged _ sd))
  · split
    · exact .of_same (.putHolder (s.overtakeLapse sd) sd p) rfl
    · exact .refl s

theorem SideMoves.releaseSide (s : State) (p : Port) (b : Byte) : SideMoves s (s.releaseSide p b).2 := by
  refine .withSide (fun sd => ?_) p b
  split
  · exact .freeHold s sd
  · exact .refl s

/-- A countdown that SET CYCLE takes is in range (R69). -/
theorem optField_countdown {present : Bool} {w : Word16} {n : Option Nat} (h : optField present (countdownOf w) = some n) :
    ∀ m, n = some m → m ≤ Config.maxCountdown := by
  rintro m rfl
  unfold optField countdownOf at h
  split at h
  · split at h
    · rename_i hw
      simp only [Option.map_some, Option.some.injEq] at h
      exact h ▸ hw
    · cases h
  · cases h

theorem SideMoves.setCycle (s : State) (p : Port) (b pr ph : Byte) (n : Word16) (r : Byte) :
    SideMoves s (s.setCycle p b pr ph n r).2 := by
  refine .withSide (fun sd => ?_) p b
  split
  · rename_i hn _
    exact .putCycle (.written _ _ _ (optField_countdown hn)) _
  · exact .refl s

/-! ### Prompts (R10, R11, R22) -/

theorem SideMoves.enter (s : State) (x : Prompt) (slot : Nat) : SideMoves s (s.enter x slot) := by
  unfold State.enter
  simp only
  refine .of_same (t := s.place x slot) (SideMoves.trans ?_ (.presents (.offerPrompt _ slot))) rfl
  split
  · exact .wakeForPrompt _ _
  · exact .refl _

theorem SideMoves.acceptPrompt (s : State) (x : Prompt) (old : Option Prompt) : SideMoves s (s.acceptPrompt x old).2 := by
  have ho : SideMoves s (match old with | some q => s.closeNoChoice q .replaced | none => s) := by
    cases old with
    | none => exact .refl s
    | some q => exact .same (sideView_closeNoChoice s q .replaced)
  unfold State.acceptPrompt
  simp only
  split
  · exact .refl s
  · rename_i slot _
    refine (ho.trans (.enter _ x slot)).trans (.presents (Presents.trans ?_ (.settle _)))
    cases old with
    | none => exact .refl _
    | some q =>
      simp only
      split
      · exact .refl _
      · exact .chooseRegion _ _

theorem SideMoves.postPrompt (s : State) (p : Port) (b : PromptBody) : SideMoves s (s.postPrompt p b).2 := by
  refine .withSide (fun sd => ?_) p b.side
  split
  · exact .refl s
  · simp only
    split
    · exact .refl s
    · split
      · exact .refl s
      · exact .acceptPrompt s _ _

theorem SideMoves.withdrawPrompt (s : State) (p : Port) (t : Byte) : SideMoves s (s.withdrawPrompt p t).2 := by
  unfold State.withdrawPrompt
  split
  · exact .refl s
  · exact .same (sideView_closePrompt s _ _)

theorem sideView_optWord (s : State) (x : Option Nat) : (s.optWord x).2.sideView = s.sideView := by
  cases x <;> rfl

theorem sideView_queryPrompt (s : State) (p : Port) (t : Byte) : (s.queryPrompt p t).2.sideView = s.sideView := by
  unfold State.queryPrompt
  split
  · rfl
  · exact (sideView_optWord _ _).trans (sideView_optWord s _)

theorem sideView_summary (s : State) (n : Nat) : (s.summary n).2.sideView = s.sideView := by
  unfold State.summary
  split <;> rfl

theorem sideView_listPrompts (s : State) (n : Byte) : (s.listPrompts n).2.sideView = s.sideView := by
  unfold State.listPrompts
  split
  · exact (sideView_summary _ _).trans (sideView_summary s _)
  · rfl

/-! ### Links and service mode (R164 to R169, R177 to R185) -/

theorem sideView_finishTest (s : State) (k : TestKind) (v : Verdict) (a b : Nat) : (s.finishTest k v a b).sideView = s.sideView :=
  (Presents.offerRoom _ _).sideView

theorem sideView_abortTest (s : State) : s.abortTest.sideView = s.sideView := by
  unfold State.abortTest
  split
  · refine (sideView_finishTest _ _ _ _ _).trans ?_
    unfold State.dropTestRead
    split <;> rfl
  · rfl
  · rfl

theorem sideView_leaveService (s : State) : s.leaveService.sideView = s.sideView := by
  unfold State.leaveService
  split
  · exact (Presents.settle _).sideView.trans ((Presents.abortAudition _).sideView.trans (sideView_abortTest s))
  · rfl

theorem sideView_stopUnbound (s : State) (sd : Side) : (s.stopUnbound sd).sideView = s.sideView := (Presents.stopUnbound s sd).sideView

theorem sideView_bindRole (s : State) (p : Port) (r : Byte) : (s.bindRole p r).2.sideView = s.sideView := by
  unfold State.bindRole
  split
  · rfl
  · split
    · split <;> rfl
    · split
      · rfl
      · unfold State.bind State.drumBound
        split
        · exact sideView_stopUnbound _ _
        · rfl

theorem SideMoves.drumCycleReset (s : State) (p : Port) : SideMoves s (s.drumCycleReset p) := by
  unfold State.drumCycleReset
  split
  · exact .putCycle .resets _
  · exact .refl s

theorem SideMoves.clientReset (s : State) (p : Port) : SideMoves s (s.clientReset p) := by
  have hr : ∀ u : State, (u.roomLeaves p).sideView = u.sideView := fun u => by
    unfold State.roomLeaves
    split
    · exact sideView_leaveService u
    · rfl
  unfold State.clientReset
  refine .of_same (((SideMoves.freeHeld _ p .lower).trans (.freeHeld _ p .upper)).trans ?_) (sideView_removeOwned (s.resetPortStore p) p)
  exact .of_same (.drumCycleReset _ p) (hr _)

theorem SideMoves.unbindRole (s : State) (p : Port) : SideMoves s (s.unbindRole p) := by
  have hd : ∀ (u : State) r, (u.drumUnbound r).sideView = u.sideView := fun u r => by
    unfold State.drumUnbound
    split <;> rfl
  unfold State.unbindRole
  simp only
  refine (SideMoves.clientReset s p).trans ?_
  split
  · exact .same (hd _ _)
  · exact .same rfl

theorem sideView_fetchNotice (s : State) (p : Port) : (s.fetchNotice p).2.sideView = s.sideView := by
  unfold State.fetchNotice
  split <;> rfl

theorem SideMoves.setConfig (s : State) (b : ConfigBody) : SideMoves s (s.setConfig b).2 := by
  unfold State.setConfig
  split
  · exact .refl s
  · exact (SideMoves.configured s _).trans (.presents (putConfig_presents s _))

theorem sideView_selfTest (s : State) (t : Byte) (a b : Word16) : (s.selfTest t a b).2.sideView = s.sideView := by
  unfold State.selfTest
  split
  · rfl
  · rfl
  · split
    · rfl
    · unfold State.startStoreSum
      split <;> rfl
    · unfold State.startSpeechCheck
      split
      · split
        · exact sideView_finishTest s _ _ _ _
        · split
          · exact sideView_finishTest s _ _ _ _
          · rfl
      · rfl
    · exact sideView_finishTest s _ _ _ _
    · unfold State.startKeyCheck
      split <;> rfl

theorem sideView_startAuditioning (s : State) (n l : Byte) : (s.startAuditioning n l).2.sideView = s.sideView := by
  unfold State.startAuditioning
  split
  · rfl
  · split
    · exact (Presents.settle _).sideView.trans (Presents.abortAudition s).sideView
    · rfl

theorem sideView_restoreSpeech (s : State) : s.restoreSpeech.sideView = s.sideView := by
  unfold State.restoreSpeech
  simp only
  split
  · exact ((Presents.offerEach _ _ _).trans (.settle _)).sideView
  · rfl

theorem sideView_readTestResult (s : State) : s.readTestResult.2.sideView = s.sideView := by
  unfold State.readTestResult
  split <;> rfl

/-! ### Library tables and the store (R98 to R109, R138 to R150) -/

theorem sideView_takeWrite (s : State) (p : Port) (g o : Nat) (d : List Byte) : (s.takeWrite p g o d).2.sideView = s.sideView := by
  unfold State.takeWrite
  split
  · rfl
  · split
    · rfl
    · split
      · rfl
      · split <;> rfl

theorem sideView_writePage (s : State) (p : Port) (g o : Word16) (n : Byte) (d : List Byte) :
    (s.writePage p g o n d).2.sideView = s.sideView := by
  unfold State.writePage
  split
  · rfl
  · split
    · rfl
    · exact sideView_takeWrite s p _ _ d

theorem readPage_unchanged (s : State) (p : Port) (g o : Word16) (n : Byte) : (s.readPage p g o n).2 = s := by
  unfold State.readPage
  split
  · rfl
  · split
    · rfl
    · split <;> rfl

theorem sideView_readPostError (s : State) (p : Port) : (s.readPostError p).2.sideView = s.sideView := by
  unfold State.readPostError
  split <;> rfl

theorem sideView_setWindow (s : State) (t w f : Byte) (a b o : Word16) : (s.setWindow t w f a b o).2.sideView = s.sideView := by
  unfold State.setWindow
  split
  · rfl
  · split <;> rfl

theorem sideView_setPhrase (s : State) (n l f : Byte) (a : Word16) (b : Byte) : (s.setPhrase n l f a b).2.sideView = s.sideView := by
  unfold State.setPhrase
  split
  · rfl
  · split <;> rfl

theorem readPhrase_unchanged (s : State) (n l : Byte) : (s.readPhrase n l).2 = s := by
  unfold State.readPhrase
  split <;> rfl

theorem sideView_setTone (s : State) (n c : Byte) (l : List (Byte × Byte)) : (s.setTone n c l).2.sideView = s.sideView := by
  unfold State.setTone
  split <;> rfl

theorem sideView_setGlyph (s : State) (c : Byte) (l : List Byte) : (s.setGlyph c l).2.sideView = s.sideView := by
  unfold State.setGlyph
  split <;> rfl

theorem sideView_setSegmentMap (s : State) (l : List Byte) : (s.setSegmentMap l).2.sideView = s.sideView := by
  unfold State.setSegmentMap
  split <;> rfl

theorem sideView_lampTest (s : State) (l b : Byte) : (s.lampTest l b).2.sideView = s.sideView := by
  unfold State.lampTest
  split <;> rfl

theorem readCycle_unchanged (s : State) (b : Byte) : (s.readCycle b).2 = s := by
  unfold State.readCycle
  split <;> rfl

/-! ### Requests (R161, R162) -/

theorem SideMoves.carryOut (s : State) (p : Port) (r : Request) : SideMoves s (s.carryOut p r).2 := by
  cases r with
  | bindRole r => exact .same (sideView_bindRole s p r)
  | unbindRole => exact .unbindRole s p
  | clientReset => exact .clientReset s p
  | fetchNotice => exact .same (sideView_fetchNotice s p)
  | postPrompt b => exact .postPrompt s p b
  | withdrawPrompt t => exact .withdrawPrompt s p t
  | queryPrompt t => exact .same (sideView_queryPrompt s p t)
  | listPrompts n => exact .same (sideView_listPrompts s n)
  | startSession b => exact .withSide (fun sd => .sessionEvent s sd) p b
  | endSession b => exact .stopSession s p b
  | setLanguage b l => exact .setLanguage s p b l
  | setSpeechMode b m => exact .setSpeechMode s p b m
  | claimSide b => exact .claimSide s p b
  | releaseSide b => exact .releaseSide s p b
  | setCycle b pr ph n r => exact .setCycle s p b pr ph n r
  | readCycle b => exact .same (congrArg _ (readCycle_unchanged s b))
  | writePage g o n d => exact .same (sideView_writePage s p g o n d)
  | readPage g o n => exact .same (congrArg _ (readPage_unchanged s p g o n))
  | readPostError => exact .same (sideView_readPostError s p)
  | setWindow t w f a b o => exact .same (sideView_setWindow s t w f a b o)
  | setPhrase n l f a b => exact .same (sideView_setPhrase s n l f a b)
  | readPhrase n l => exact .same (congrArg _ (readPhrase_unchanged s n l))
  | setConfig b => exact .setConfig s b
  | setTone n c l => exact .same (sideView_setTone s n c l)
  | setGlyph c l => exact .same (sideView_setGlyph s c l)
  | setSegmentMap l => exact .same (sideView_setSegmentMap s l)
  | leaveService => exact .same (sideView_leaveService s)
  | lampTest l b => exact .same (sideView_lampTest s l b)
  | selfTest t a b => exact .same (sideView_selfTest s t a b)
  | readTestResult => exact .same (sideView_readTestResult s)
  | audition n l => exact .same (sideView_startAuditioning s n l)
  | restoreSpeech => exact .same (sideView_restoreSpeech s)
  | setAttentionMask | enterService | readIdentity | readConfig => exact .same rfl

theorem sideView_reply (s : State) (p : Port) (c q : Byte) (r : Reply) : (s.reply p c q r).sideView = s.sideView := by
  cases r <;> rfl

theorem sideView_replyWork (s : State) (p : Port) (r : Reply) : (s.replyWork p r).sideView = s.sideView := by
  unfold State.replyWork
  split
  · exact sideView_reply s p _ _ r
  · rfl

theorem SideMoves.takeRequest (s : State) (p : Port) (c q : Byte) (r : Option Request) : SideMoves s (s.takeRequest p c q r) := by
  unfold State.takeRequest
  split
  · exact .same rfl
  · split
    · exact .same rfl
    · split
      · exact .same rfl
      · split
        · exact (SideMoves.carryOut s p _).trans (.same (sideView_reply _ p c q _))
        · exact .same rfl

theorem SideMoves.requestArrives (s : State) (p : Port) (q : Byte) (r : Request) : SideMoves s (s.requestArrives p q r) := by
  unfold State.requestArrives
  split
  · exact .refl s
  · exact .of_same (.takeRequest (s.receiver p .hunt) p _ q _) rfl

theorem SideMoves.takeFrame (s : State) (p : Port) (l : List Byte) (c : Word16) : SideMoves s (s.takeFrame p l c) := by
  unfold State.takeFrame
  split
  · split
    · exact .of_same (.takeRequest (s.receiver p .hunt) p _ _ _) rfl
    · exact .same rfl
  · exact .same rfl

theorem SideMoves.frameArrives (s : State) (p : Port) (l : List Byte) (c : Word16) : SideMoves s (s.frameArrives p l c) := by
  unfold State.frameArrives
  split
  · exact .refl s
  · split
    · exact .takeFrame s p l c
    · exact .same rfl

theorem SideMoves.takeByte (s : State) (p : Port) (b : Byte) (e : Bool) : SideMoves s (s.takeByte p b e) := by
  unfold State.takeByte
  split
  · exact .refl s
  · split
    · exact .same rfl
    · exact .refl s
  · split <;> exact .same rfl
  · split <;> exact .same rfl
  · split <;> exact .same rfl
  · split
    · exact .takeFrame s p _ _
    · exact .same rfl

theorem sideView_gapExpires (s : State) (p : Port) : (s.gapExpires p).sideView = s.sideView := by
  unfold State.gapExpires
  split
  · rfl
  · split <;> rfl

/-! ### Keys and knobs (R75 to R89) -/

theorem sideView_routeTest (s : State) (sd : Side) (k : EventKey) (d : EventKind) : (s.routeTest sd k d).sideView = s.sideView :=
  (Presents.offerRoom s (keyNotice sd k d true)).sideView

theorem SideMoves.wakeKey (s : State) (sd : Side) (k : Key) : SideMoves s (s.wakeKey sd k) :=
  (SideMoves.sessionEvent s sd).trans (.same rfl)

/-- After a session-start event the side is ACTIVE (R54). -/
theorem sessionEvent_active (s : State) (sd : Side) : ((s.sessionEvent sd).records sd).session.active = true := by
  have hs : ∀ u : State, (State.sideActive u).records = u.records := fun u => by
    unfold State.sideActive State.records
    split
    · rfl
    · rw [((Presents.startRender _ .lower).trans (.startRender _ .upper)).scu]
    · rfl
    · rfl
  unfold State.sessionEvent
  split
  · rename_i h
    rw [← idleRestarted_eq]
    unfold idleRestarted State.records
    cases sd <;> exact h
  · unfold State.beginSession
    rw [hs, State.offerMasked_eq]
    cases sd <;> rfl

theorem Presents.offerKey (s : State) (sd : Side) (k : EventKey) (d : EventKind) : Presents s (s.offerKey sd k d) := by
  unfold State.offerKey
  split
  · exact .offer s _ _
  · exact .refl s

theorem sideView_answer (s : State) (p : Prompt) (k : Key) (hold : Bool) : (s.answer p k hold).sideView = s.sideView := by
  have ha : (((s.stopSpan p.slot).onPrompt p.slot acknowledge).dropReplay p.side p.slot).sideView = s.sideView :=
    (Presents.dropReplay _ p.side p.slot).sideView.trans (Presents.stopSpan s p.slot).sideView
  unfold State.answer
  split
  · exact sideView_closePrompt s _ _
  · exact sideView_closePrompt s _ _
  · exact ((Presents.offer _ p.owner _).trans (.settle _)).sideView.trans ha
  · exact ((Presents.offer _ p.owner _).trans (.settle _)).sideView.trans ha
  · rfl
  · rfl

theorem sideView_routeKey (s : State) (sd : Side) (k : Key) (hold : Bool) : (s.routeKey sd k hold).sideView = s.sideView := by
  unfold State.routeKey
  split
  · split
    · exact (sideView_answer _ _ _ _).trans (Presents.requestTone s 14 sd .click).sideView
    · exact (Presents.requestTone s 15 sd .reject).sideView
  · exact ((Presents.requestTone s 14 sd .click).trans (.offerKey _ sd _ _)).sideView

theorem SideMoves.acceptKey {s : State} {sd : Side} (h : (s.records sd).session.active = true) (k : Key) (hold : Bool) :
    SideMoves s (s.acceptKey sd k hold) := by
  unfold State.acceptKey
  split
  · exact .presents ((Presents.requestTone s 14 sd .click).trans (.helpRequest _ sd))
  · refine (SideMoves.presents (.requestTone s 14 sd .click)).trans (.putMode ?_ _)
    rw [show (s.requestTone 14 sd .click).records = s.records from records_click s sd]
    exact h
  all_goals exact .same (sideView_routeKey s sd _ hold)

theorem SideMoves.takeKey (s : State) (sd : Side) (k : Key) (hold : Bool) : SideMoves s (s.takeKey sd k hold) := by
  unfold State.takeKey
  split
  · exact .same (sideView_routeTest s sd _ _)
  · split
    · exact .wakeKey s sd k
    · exact (SideMoves.sessionEvent s sd).trans (.acceptKey (sessionEvent_active s sd) k hold)

theorem SideMoves.confirmMake (s : State) (sd : Side) (k : Key) : SideMoves s (s.confirmMake sd k) := by
  unfold State.confirmMake State.takeMake
  split
  · exact .same rfl
  · split
    · refine .of_same (t := s.onKey sd k madeKey) ?_ rfl
      split
      · exact .refl _
      · split
        · exact .wakeKey _ sd k
        · exact .refl _
    all_goals exact .refl s

theorem SideMoves.pressKey (s : State) (sd : Side) (k : Key) : SideMoves s (s.pressKey sd k) := by
  unfold State.pressKey
  split
  · exact .same rfl
  · split
    · split
      · exact .refl s
      · exact .of_same (.takeKey (s.onKey sd k restedKey) sd k false) rfl
    all_goals exact .refl s

theorem SideMoves.holdKey (s : State) (sd : Side) (k : Key) : SideMoves s (s.holdKey sd k) := by
  unfold State.holdKey
  split
  · split
    · exact .refl s
    · exact .of_same (.takeKey (s.spend sd k) sd k true) rfl
  all_goals exact .refl s

theorem SideMoves.confirmBreak (s : State) (sd : Side) (k : Key) : SideMoves s (s.confirmBreak sd k) := by
  unfold State.confirmBreak
  split
  · exact .same rfl
  · split
    · split
      · exact .same rfl
      · exact .pressKey s sd k
    all_goals exact .refl s

theorem SideMoves.takeDetent (s : State) (sd : Side) (d : EventKind) : SideMoves s (s.takeDetent sd d) := by
  unfold State.takeDetent
  split
  · exact .same (sideView_routeTest s sd _ _)
  · split
    · exact .sessionEvent s sd
    · exact (SideMoves.sessionEvent s sd).trans (.presents (.offerKey _ sd _ _))

theorem SideMoves.moveKnob (s : State) (sd : Side) (p q : Bool) : SideMoves s (s.moveKnob sd p q) := by
  unfold State.moveKnob
  split
  · simp only
    split
    · exact .of_same (.takeDetent (s.onKnob sd fun _ => ((s.ksc.sides.get sd).knob.moved p q).1) sd _) rfl
    · exact .same rfl
  · exact .same rfl

/-! ### The store bus (R107, R110) -/

theorem sideView_bufferEmptied (s : State) (p : Port) : (s.bufferEmptied p).sideView = s.sideView := by
  unfold State.bufferEmptied
  split
  · exact (sideView_reply _ p _ _ _).trans (sideView_takeWrite s p _ _ _)
  · exact sideView_reply s p _ _ _
  · rfl

theorem sideView_failPosted (s : State) (p : Port) (w : Posted) (c : PostCause) : (s.failPosted p w c).sideView = s.sideView :=
  (sideView_bufferEmptied _ p).trans (Presents.offer _ p _).sideView

theorem sideView_grantPosted (s : State) (p : Port) (w : Posted) : (s.grantPosted p w).sideView = s.sideView := by
  unfold State.grantPosted
  split
  · exact sideView_failPosted s p w _
  · split
    · exact sideView_failPosted s p w _
    · simp only
      split <;> rfl

theorem sideView_grantClient (s : State) (p : Port) (c : PortClaim) : (s.grantClient p c).sideView = s.sideView := by
  cases c with
  | posted w => exact sideView_grantPosted (s.served p) p w
  | read | write => rfl

theorem sideView_grantDisplay (s : State) (sd : Side) : (s.grantDisplay sd).sideView = s.sideView := by
  unfold State.grantDisplay
  split <;> rfl

theorem sideView_grantTest (s : State) (g n : Nat) : (s.grantTest g n).sideView = s.sideView := by
  unfold State.grantTest
  simp only
  split
  · exact sideView_replyWork _ _ _
  · rfl

theorem sideView_arbitrate (s : State) : s.arbitrate.sideView = s.sideView := by
  unfold State.arbitrate
  split
  · rfl
  · split
    · exact sideView_grantDisplay s _
    · split
      · exact sideView_grantClient s _ _
      · split
        · exact sideView_grantTest s _ _
        · rfl

theorem sideView_grantLoop : ∀ (n : Nat) (s : State), (State.grantLoop n s).sideView = s.sideView
  | 0, _ => rfl
  | n + 1, s => by
    unfold State.grantLoop
    split
    · rfl
    · exact (sideView_grantLoop n _).trans ((Presents.settle _).sideView.trans (sideView_arbitrate s))

theorem sideView_testRead (s : State) (l : List Byte) : (s.testRead l).sideView = s.sideView := by
  unfold State.testRead
  split
  · simp only
    split
    · exact sideView_finishTest s _ _ _ _
    · rfl
  · simp only
    split
    · exact sideView_finishTest s _ _ _ _
    · rfl
  · rfl

theorem sideView_storeFetched (s : State) (g n : Nat) (r : Resolution) (l : List Byte) :
    (s.storeFetched g n r l).sideView = s.sideView := by
  unfold State.storeFetched
  split
  · rfl
  · split
    · rfl
    · split <;> rfl

theorem sideView_textRead (s : State) (sd : Side) (l : List Byte) : (s.textRead sd l).sideView = s.sideView := by
  unfold State.textRead
  split
  · split <;> exact (Presents.continueRender s sd _ _ _).sideView
  · rfl

theorem sideView_finishTransfer (s : State) (t : Transfer) : (s.finishTransfer t).sideView = s.sideView := by
  cases t with
  | speech g n r => exact sideView_storeFetched s g n r _
  | display sd g dropped =>
    cases dropped
    · exact sideView_textRead s sd _
    · rfl
  | read p g o n => exact sideView_replyWork s p _
  | write p g o d => exact sideView_replyWork (s.performWrite g o d) p _
  | posted p g o d => exact sideView_bufferEmptied ((s.performWrite g o d).dropPosted p) p
  | test g n dropped =>
    cases dropped
    · exact sideView_testRead s _
    · rfl

theorem sideView_transferEnd (s : State) : s.transferEnd.sideView = s.sideView := by
  unfold State.transferEnd
  split
  · rfl
  · exact (Presents.settle _).sideView.trans (sideView_finishTransfer _ _)

/-! ### Timers (R17 to R20, R37, R56, R128 to R139) -/

theorem sideView_expire (s : State) (n : Nat) : (s.expire n).sideView = s.sideView := by
  unfold State.expire
  split
  · rfl
  · split
    · split
      · exact sideView_closePrompt s n _
      · rfl
    · rfl

theorem sideView_dwellOut (s : State) (n : Nat) : (s.dwellOut n).sideView = s.sideView := by
  unfold State.dwellOut
  split
  · rfl
  · split
    · split
      · exact sideView_closePrompt s n _
      · rfl
    · rfl

theorem sideView_repeatFalls (s : State) (n : Nat) : (s.repeatFalls n).sideView = s.sideView := by
  unfold State.repeatFalls
  split
  · rfl
  · split
    · split
      · exact (Presents.settle _).sideView
      · rfl
    · rfl

theorem SideMoves.idleOut (s : State) (sd : Side) : SideMoves s (s.idleOut sd) := by
  unfold State.idleOut
  split
  · exact .same rfl
  · split
    · exact .endSession s sd _
    · exact .refl s

theorem sideView_unboundOut (s : State) (sd : Side) : (s.unboundOut sd).sideView = s.sideView := by
  unfold State.unboundOut
  split
  · rfl
  · split
    · exact (Presents.fallbackFalls s sd).sideView
    · rfl

theorem sideView_recoveryEnd (s : State) : s.recoveryEnd.sideView = s.sideView := by
  unfold State.recoveryEnd
  split
  · split
    · exact ((Presents.offerEach _ _ _).trans ((silence_presents s).trans (.settle _))).sideView
    · exact (Presents.settle _).sideView
  · rfl

theorem sideView_blockPlayed (s : State) (r : Resolution) (k : Nat) : (s.blockPlayed r k).sideView = s.sideView := by
  unfold State.blockPlayed
  simp only
  have h1 : Presents s (if leavesPage r k then s.unpin else s) := by
    split
    · exact .unpin s
    · exact .refl s
  have h2 : ∀ u : State, Presents u (if r.blocks ≤ k + 1 then u.cleanPhrase else u) := fun u => by
    split
    · exact .cleanPhrase u
    · exact .refl u
  have h3 : ∀ u : State, Presents u (if u.sch.safetyCut then u.cutTurn else u.onElement (afterBlock r k)) := fun u => by
    split
    · exact .cutTurn u
    · exact .onElement u _
  exact ((h1.trans (h2 _)).trans (h3 _)).sideView

theorem sideView_blockEnd (s : State) : s.blockEnd.sideView = s.sideView := by
  unfold State.blockEnd
  split
  · split
    · split
      · exact (Presents.settle _).sideView.trans (sideView_blockPlayed s _ _)
      · rfl
    · rfl
  · rfl

theorem sideView_pieceEnd (s : State) : s.pieceEnd.sideView = s.sideView := by
  unfold State.pieceEnd
  split
  · split
    · refine (Presents.settle _).sideView.trans ?_
      split
      · exact (Presents.cutTurn s).sideView
      · rfl
    all_goals rfl
  · rfl

theorem sideView_noteEnd (s : State) : s.noteEnd.sideView = s.sideView := by
  unfold State.noteEnd
  split <;> rfl

theorem sideView_endKeyCheck (s : State) : s.endKeyCheck.sideView = s.sideView := by
  unfold State.endKeyCheck
  split
  · rfl
  · split
    · exact sideView_finishTest s _ _ _ _
    · rfl

theorem sideView_moveContact (s : State) (sd : Side) (k : Key) (closed : Bool) : (s.moveContact sd k closed).sideView = s.sideView := by
  unfold State.moveContact
  split <;> rfl

theorem sideView_ignoreEnds (s : State) : s.ignoreEnds.sideView = s.sideView := by
  have hb : ∀ (u : State) sd, (u.unboundBegins sd).sideView = u.sideView := fun u sd => by
    unfold State.unboundBegins
    split <;> rfl
  unfold State.ignoreEnds
  exact (hb _ _).trans (hb _ _)

/-! ### Steps -/

/-- A request row of the table is its request arriving. -/
theorem exec_requestOf {c : Instr} {p : Port} {q : Byte} {r : Request} (h : requestOf c = some (p, q, r)) (s : State) :
    exec c s = .next (s.requestArrives p q r) := by
  cases c <;> cases h <;> rfl

/-- What a command does to the records of the sides and to the panel's power state. -/
theorem exec_sideMoves (c : Instr) (s : State) : ∃ t, exec c s = .next t ∧ SideMoves s t := by
  cases hr : requestOf c with
  | some x =>
    obtain ⟨p, q, r⟩ := x
    exact ⟨_, exec_requestOf hr s, .requestArrives s p q r⟩
  | none =>
    cases c with
    | powerOnReset => exact ⟨_, rfl, .reset rfl⟩
    | externalReset => exact ⟨_, rfl, .reset rfl⟩
    | ignoreTimeEnd =>
      refine ⟨_, rfl, ?_⟩
      split
      · exact .same (sideView_ignoreEnds s)
      · exact .refl s
    | requestFrame p l crc => exact ⟨_, rfl, .frameArrives s p l crc⟩
    | byteTaken p b e => exact ⟨_, rfl, .takeByte s p b e⟩
    | gapTimerExpiry p => exact ⟨_, rfl, .same (sideView_gapExpires s p)⟩
    | frameTransmitted p => exact ⟨_, rfl, .same rfl⟩
    | keyContactChange sd k b => exact ⟨_, rfl, .same (sideView_moveContact s sd k b)⟩
    | makeConfirmed sd k => exact ⟨_, rfl, .confirmMake s sd k⟩
    | breakConfirmed sd k => exact ⟨_, rfl, .confirmBreak s sd k⟩
    | press sd k => exact ⟨_, rfl, .pressKey s sd k⟩
    | hold sd k => exact ⟨_, rfl, .holdKey s sd k⟩
    | knobPhaseChange sd p q => exact ⟨_, rfl, .moveKnob s sd p q⟩
    | promptExpiry n => exact ⟨_, rfl, .same (sideView_expire s n)⟩
    | dwellExpiry n => exact ⟨_, rfl, .same (sideView_dwellOut s n)⟩
    | repeatDue n => exact ⟨_, rfl, .same (sideView_repeatFalls s n)⟩
    | idleExpiry sd => exact ⟨_, rfl, .idleOut s sd⟩
    | holdLapse sd => exact ⟨_, rfl, .lapseOut s sd⟩
    | countdownFall sd => exact ⟨_, rfl, .secondOut s sd⟩
    | fallbackDue sd => exact ⟨_, rfl, .same (sideView_unboundOut s sd)⟩
    | panelOff => exact ⟨_, rfl, .darken s⟩
    | settlingEnd => exact ⟨_, rfl, .settlingOut s⟩
    | recoveryEnd => exact ⟨_, rfl, .same (sideView_recoveryEnd s)⟩
    | displayRefresh => exact ⟨_, rfl, .same rfl⟩
    | blinkHalf => exact ⟨_, rfl, .same rfl⟩
    | toneNoteEnd => exact ⟨_, rfl, .same (sideView_noteEnd s)⟩
    | busGrant => exact ⟨_, rfl, .same (sideView_grantLoop _ s)⟩
    | transferEnd => exact ⟨_, rfl, .same (sideView_transferEnd s)⟩
    | blockEnd => exact ⟨_, rfl, .same (sideView_blockEnd s)⟩
    | pausePieceEnd => exact ⟨_, rfl, .same (sideView_pieceEnd s)⟩
    | keyCheckEnd => exact ⟨_, rfl, .same (sideView_endKeyCheck s)⟩
    | _ => cases hr

/-- What a step does to the records of the sides and to the panel's power state. -/
theorem step_sideMoves {s t : State} (h : step s = .next t) : SideMoves s t := by
  unfold step at h
  split at h
  · cases h
    exact .tick s
  · rename_i c rest _
    obtain ⟨u, hu, hm⟩ := exec_sideMoves c (s.withQueue rest)
    rw [hu] at h
    cases h
    exact .of_same hm rfl

/-- Settles O59: each invariant is kept by all that a step may do. -/
theorem stepKeepsSides : Obligations.StepKeepsSides :=
  ⟨fun _ _ hs h => (step_sideMoves h).cyclesConsistent hs, fun _ _ hs h => (step_sideMoves h).sidesConsistent hs,
    fun _ _ hs h => (step_sideMoves h).panelConsistent hs⟩

end Sys2Proof.Machine
end

section
/-! What a notice queue takes (O11), the side checks (O23) and READ CYCLE (O31). -/

namespace Sys2Proof.Machine

open Sys2Proof.Claims

/-! ### Notices offered (R60, R167, R169) -/

/-- A queue that takes a notice: its notices by the table of R167, ATTN following (R169). -/
def queueTaking (q : NoticeQueue) (n : Notice) : NoticeQueue := queueWith q (queueAfter q.notices n)

theorem offer_unbound {s : State} {p : Port} (h : (s.link p).role = none) (n : Notice) : s.offer p n = s := by
  unfold State.offer
  rw [h]
  rfl

theorem offer_bound {s : State} {p : Port} (h : (s.link p).role ≠ none) (n : Notice) :
    s.offer p n = { s with nq := s.nq.update p fun q => queueTaking q n } := by
  unfold State.offer queueTaking
  rw [if_pos (Option.isSome_iff_ne_none.2 h), funext fun q : NoticeQueue => congrArg (queueWith q) (queueAfter_eq q.notices n)]
  rfl

theorem queue_offer (s : State) (q p : Port) (n : Notice) : (s.offer q n).nq.get p =
    if p = q ∧ (s.link p).role ≠ none then queueTaking (s.nq.get p) n else s.nq.get p := by
  by_cases h : (s.link q).role = none
  · rw [offer_unbound h, if_neg]
    rintro ⟨rfl, hn⟩
    exact hn h
  · rw [offer_bound h]
    refine (PerPort.get_update _ _ _ _).trans ?_
    by_cases e : p = q
    · subst e
      simp [h]
    · simp [e]

theorem link_offer (s : State) (q p : Port) (n : Notice) : (s.offer q n).link p = s.link p := by
  unfold State.link
  rw [(Presents.offer s q n).lnk]

/-- A notice offered to each of some distinct ports is taken once by each bound one. -/
theorem queue_offerEach (n : Notice) (p : Port) : ∀ (l : List Port) (s : State), l.Nodup → (s.offerEach l n).nq.get p =
    if p ∈ l ∧ (s.link p).role ≠ none then queueTaking (s.nq.get p) n else s.nq.get p
  | [], s, _ => by simp [State.offerEach]
  | q :: l, s, h => by
    obtain ⟨hq, hl⟩ := List.nodup_cons.1 h
    have ih := queue_offerEach n p l (s.offer q n) hl
    rw [link_offer, queue_offer] at ih
    refine ih.trans ?_
    by_cases e : p = q
    · subst e
      simp [hq]
    · simp [e]

/-- The masked offer reaches the bound ports whose mask enables the kind (R60). -/
theorem queue_offerMasked (s : State) (n : Notice) (p : Port) : (s.offerMasked n).nq.get p =
    if (s.link p).role ≠ none ∧ maskEnables (s.nq.get p).mask n.kind = true then queueTaking (s.nq.get p) n else s.nq.get p := by
  have hm : p ∈ allPorts.filter (fun q => maskEnables (s.nq.get q).mask n.kind) ↔ maskEnables (s.nq.get p).mask n.kind = true := by
    rw [List.mem_filter]
    exact and_iff_right (by cases p <;> decide)
  unfold State.offerMasked
  rw [queue_offerEach n p _ s (List.Nodup.filter _ (by decide))]
  simp only [hm, and_comm]

theorem offerMasked_changesOnly (s : State) (n : Notice) : changesOnly [.notices] s (s.offerMasked n) := by
  rw [State.offerMasked_eq]
  intro b hb
  cases b with
  | notices => simp at hb
  | overtaken => exact ⟨rfl, rfl⟩
  | _ => rfl

/-- Settles O11: an offer to one port, then to those that the masks choose. -/
theorem noticeQueueTakes : Obligations.NoticeQueueTakes := fun s p n =>
  ⟨fun h => offer_unbound h n, fun h => offer_bound h n, offerMasked_changesOnly s n, queue_offerMasked s n p⟩

/-! ### The side checks (R55) -/

theorem withSide_error {s : State} {p : Port} {b : Byte} {st : Status} (h : s.checkSide p b = .error st)
    (f : Side → Reply × State) : s.withSide p b f = (.answer st [], s) := by
  unfold State.withSide
  rw [h]

theorem checkSide_noSide {s : State} {b : Byte} (h : sideOf b = none) (p : Port) : s.checkSide p b = .error .badField := by
  unfold State.checkSide
  rw [h]

/-- A drum names the other side's drum role. -/
theorem checkSide_otherDrum {s : State} {p : Port} {b : Byte} {sd : Side} (hb : sideOf b = some sd)
    (hr : (s.link p).role = some .lowerDrum ∧ sd = .upper ∨ (s.link p).role = some .upperDrum ∧ sd = .lower) :
    s.checkSide p b = .error .notPermitted := by
  unfold State.checkSide
  obtain ⟨hr, rfl⟩ | ⟨hr, rfl⟩ := hr <;> rw [hb, hr] <;> rfl

/-- A request that shares the side checks, on the side field `b` (R55, R58, R59, R61, R64, R65, R69). -/
def sideRequest (r : Request) (b : Byte) : Prop :=
  r = .startSession b ∨ r = .endSession b ∨ (∃ l, r = .setLanguage b l) ∨ (∃ m, r = .setSpeechMode b m) ∨ r = .claimSide b ∨
    r = .releaseSide b ∨ ∃ pr ph n run, r = .setCycle b pr ph n run ∧ pr.toNat < 8

theorem wellSized_sideRequest {r : Request} {b : Byte} (h : sideRequest r b) : wellSized r = true := by
  obtain rfl | rfl | ⟨_, rfl⟩ | ⟨_, rfl⟩ | rfl | rfl | ⟨_, _, _, _, rfl, hp⟩ := h
  case inr.inr.inr.inr.inr.inr => exact decide_eq_true hp
  all_goals rfl

theorem carryOut_sideRequest {r : Request} {b : Byte} (h : sideRequest r b) (s : State) (p : Port) :
    ∃ f, s.carryOut p r = s.withSide p b f := by
  obtain rfl | rfl | ⟨_, rfl⟩ | ⟨_, rfl⟩ | rfl | rfl | ⟨_, _, _, _, rfl, _⟩ := h <;> exact ⟨_, rfl⟩

/-- A side request that fails a side check is answered so and changes nothing else. -/
theorem exec_sideRefused {s : State} {c : Instr} {p : Port} {q b : Byte} {r : Request} {st : Status}
    (hc : requestOf c = some (p, q, r)) (h : ready s p (requestCode r)) (hr : sideRequest r b)
    (hs : (receiving s p .hunt).checkSide p b = .error st) : exec c s = .next (answered s p (requestCode r) q st []) := by
  obtain ⟨f, hf⟩ := carryOut_sideRequest hr (receiving s p .hunt) p
  rw [exec_requestOf hc, requestArrives_unchanged q h (wellSized_sideRequest hr) (hf.trans (withSide_error hs f))]

theorem role_receiving (s : State) (p q : Port) (x : Receive) : ((receiving s p x).link q).role = (s.link q).role := by
  rw [receiving_eq, State.role_receiver]

/-- Settles O23: each refusal of the side checks is the request's answer. -/
theorem sideChecksRefuse : Obligations.SideChecksRefuse := by
  intro s c p q b r hc h hr
  refine ⟨fun hb => exec_sideRefused hc h hr (checkSide_noSide hb p), fun sd hb hd => exec_sideRefused hc h hr ?_⟩
  refine checkSide_otherDrum hb ?_
  rwa [role_receiving]

/-! ### READ CYCLE (R73) -/

theorem codeCheck_readCycle {s : State} {p : Port} (h : (s.link p).role ≠ none) : s.codeCheck p 0x27 = none := by
  obtain ⟨r, hr⟩ := Option.ne_none_iff_exists'.1 h
  have hp : rolePermits r 0x27 = true := by cases r <;> decide
  unfold State.codeCheck
  rw [hr, if_neg (by decide)]
  simp only [hp]
  rfl

theorem readCycle_noSide {b : Byte} (h : sideOf b = none) (s : State) : s.readCycle b = (.answer .badField [], s) := by
  unfold State.readCycle
  rw [h]

theorem readCycle_side {b : Byte} {sd : Side} (h : sideOf b = some sd) (s : State) :
    s.readCycle b = (.answer .ok (cycleBytes (s.records sd).cycle), s) := by
  unfold State.readCycle
  rw [h]

/-- READ CYCLE is its block's reply, which changes nothing. -/
theorem exec_readCycle {s : State} {p : Port} {b : Byte} {st : Status} {body : List Byte} (q : Byte) (h : ready s p 0x27)
    (hc : (receiving s p .hunt).readCycle b = (.answer st body, receiving s p .hunt)) :
    exec (.readCycle p q b) s = .next (answered s p 0x27 q st body) :=
  (exec_requestOf (r := .readCycle b) rfl s).trans (congrArg _ (requestArrives_unchanged (r := .readCycle b) q h rfl hc))

/-- Settles O31: the two replies of READ CYCLE. -/
theorem cycleRead : Obligations.CycleRead := fun _ _ q _ => ⟨codeCheck_readCycle, fun h =>
  ⟨fun hb => exec_readCycle q h (readCycle_noSide hb _), fun _ hb => exec_readCycle q h (readCycle_side hb _)⟩⟩

end Sys2Proof.Machine
end

section
/-! START SESSION (O24), SET LANGUAGE and SET SPEECH MODE (O26). -/

namespace Sys2Proof.Machine

open Sys2Proof.Claims

/-! ### Renders and sessions beside links and keys (R143, R157) -/

/-- The transfer under way once the read of a region's render is to be discarded (R143). -/
def transferDropped (sd : Side) : Option Transfer → Option Transfer
  | some (.display d page false) => if d = sd then some (.display d page true) else some (.display d page false)
  | x => x

theorem readDropped_transfer (s : State) (sd : Side) :
    readDropped s sd = { s with psc := { s.psc with transfer := transferDropped sd s.psc.transfer } } := by
  have hs : ∀ x, s.psc.transfer = x → s = { s with psc := { s.psc with transfer := x } } := by rintro _ rfl; rfl
  cases h : s.psc.transfer with
  | none => simp only [readDropped, h]; exact hs _ h
  | some t =>
    cases t with
    | display d page dropped =>
      cases dropped with
      | false =>
        simp only [readDropped, h, transferDropped]
        split
        · rfl
        · exact hs _ h
      | true => simp only [readDropped, h]; exact hs _ h
    | _ => simp only [readDropped, h]; exact hs _ h

/-- The links and the keys moved on. -/
def inputsMoved (a : PerPort PortLink → PerPort PortLink) (b : Scanner → Scanner) (s : State) : State :=
  { s with lnk := a s.lnk, ksc := b s.ksc }

section

variable {a : PerPort PortLink → PerPort PortLink} {b : Scanner → Scanner}

theorem offerEach_inputsMoved (ha : ∀ x q, ((a x).get q).role = (x.get q).role) (n : Notice) :
    ∀ (ps : List Port) (s : State), (inputsMoved a b s).offerEach ps n = inputsMoved a b (s.offerEach ps n)
  | [], _ => rfl
  | p :: ps, s => by
    have h : (inputsMoved a b s).offer p n = inputsMoved a b (s.offer p n) := by
      have hr : ((inputsMoved a b s).link p).role = (s.link p).role := ha s.lnk p
      unfold State.offer
      rw [hr]
      split <;> rfl
    show ((inputsMoved a b s).offer p n).offerEach ps n = inputsMoved a b ((s.offer p n).offerEach ps n)
    rw [h, offerEach_inputsMoved ha n ps]

theorem renderBegun_inputsMoved (s : State) (sd : Side) :
    renderBegun (inputsMoved a b s) sd = inputsMoved a b (renderBegun s sd) := by
  have hr : regionRendered (inputsMoved a b s) sd = regionRendered s sd := by
    unfold regionRendered
    rw [show (inputsMoved a b s).region sd = s.region sd from rfl]
    cases (s.region sd).content with
    | prompt _ g => exact rendered_congr (s := s) (t := inputsMoved a b s) rfl rfl rfl sd _ [] _ _
    | empty | fallback => rfl
  unfold renderBegun
  rw [hr, readDropped_transfer, readDropped_transfer]
  rfl

theorem eventWoken_inputsMoved (ha : ∀ x q, ((a x).get q).role = (x.get q).role) (s : State) (sd : Side) :
    eventWoken (inputsMoved a b s) sd = inputsMoved a b (eventWoken s sd) := by
  have hb : sessionBegun (inputsMoved a b s) sd = inputsMoved a b (sessionBegun s sd) :=
    congrArg (fun u : State => ({ u with dsp := panelWoken u.dsp } : State)) (offerEach_inputsMoved ha _ _
      (s.onSession sd fun y => { y with active := true, idle := some ⟨0, s.cfg.idleTimeout⟩ }))
  have hs : sessionStarted (inputsMoved a b s) sd = inputsMoved a b (sessionStarted s sd) := by
    unfold sessionStarted
    rw [hb, renderBegun_inputsMoved, renderBegun_inputsMoved]
    exact (apply_ite (inputsMoved a b) (s.dsp.power = .off) _ _).symm
  unfold eventWoken
  rw [hs, show idleRestarted (inputsMoved a b s) sd = inputsMoved a b (idleRestarted s sd) from rfl]
  exact (apply_ite (inputsMoved a b) ((s.records sd).session.active = true) _ _).symm

end

/-- A receiver that moves on keeps the roles. -/
theorem role_heard (p : Port) (r : Receive) (x : PerPort PortLink) (q : Port) :
    ((x.update p fun l => heard l r).get q).role = (x.get q).role := by
  rw [PerPort.get_update]
  split <;> rfl

theorem offerMasked_receiving (s : State) (p : Port) (x : Receive) (n : Notice) :
    (receiving s p x).offerMasked n = receiving (s.offerMasked n) p x :=
  offerEach_inputsMoved (a := fun y => y.update p fun l => heard l x) (b := id) (role_heard p x) n _ s

theorem eventWoken_receiving (s : State) (p : Port) (x : Receive) (sd : Side) :
    eventWoken (receiving s p x) sd = receiving (eventWoken s sd) p x :=
  eventWoken_inputsMoved (a := fun y => y.update p fun l => heard l x) (b := id) (role_heard p x) s sd

theorem languageTaken_receiving (s : State) (p : Port) (x : Receive) (sd : Side) (old : Fin 4) :
    languageTaken (receiving s p x) sd old = receiving (languageTaken s sd old) p x := by
  have h : renderBegun (receiving s p x) sd = receiving (renderBegun s sd) p x :=
    renderBegun_inputsMoved (a := fun y => y.update p fun l => heard l x) (b := id) s sd
  unfold languageTaken
  rw [h]
  exact (apply_ite (fun u => receiving u p x)
    ((s.records sd).session.language ≠ old ∧ (s.region sd).showsPrompt = true) _ _).symm

/-! ### Session-start events (R54, R56, R152) -/

theorem Presents.renderBegun (s : State) (sd : Side) : Presents s (renderBegun s sd) := by
  rw [renderBegun_eq]
  exact .startRender s sd

/-- The renders of a wake are presentation. -/
theorem Presents.eventWoken (s : State) (sd : Side) : Presents (eventPassed s sd) (eventWoken s sd) := by
  unfold eventPassed Claims.eventWoken sessionStarted
  split
  · exact .refl _
  · split
    · exact (Presents.renderBegun _ .lower).trans (.renderBegun _ .upper)
    · exact .refl _

theorem eventPassed_lnk (s : State) (sd : Side) : (eventPassed s sd).lnk = s.lnk := by
  unfold eventPassed sessionBegun
  split
  · rfl
  · rw [State.offerMasked_eq]
    rfl

/-- A session-start event leaves the side ACTIVE with its idle timer at 0, and its other fields as they were. -/
theorem session_eventPassed (s : State) (sd : Side) : ((eventPassed s sd).records sd).session =
    { (s.records sd).session with active := true, idle := some ⟨0, s.cfg.idleTimeout⟩ } := by
  unfold eventPassed sessionBegun
  split
  · rename_i h
    rw [← h]
    cases sd <;> rfl
  · rw [State.offerMasked_eq]
    cases sd <;> rfl

theorem session_eventWoken (s : State) (sd : Side) : ((eventWoken s sd).records sd).session =
    { (s.records sd).session with active := true, idle := some ⟨0, s.cfg.idleTimeout⟩ } := by
  rw [records_of_sideView (Presents.eventWoken s sd).sideView]
  exact session_eventPassed s sd

/-! ### START SESSION (R55) -/

/-- START SESSION within the sender's sides: the session-start event, and what it found and left in the response. -/
theorem exec_startSession {s : State} {p : Port} {b : Byte} {sd : Side} (q : Byte) (h : ready s p 0x20) (hb : sideOf b = some sd)
    (hr : roleReachesSide (s.link p).role sd = true) : exec (.startSession p q b) s = .next (answered (eventWoken s sd) p 0x20 q .ok
      [boolCode (!(s.records sd).session.active), 1, fourCode (s.records sd).session.language, modeCode (s.records sd).session.mode,
        fourCode (s.records sd).session.volume]) := by
  rw [answered_eq, ← eventWoken_receiving]
  refine (exec_requestOf (r := .startSession b) rfl s).trans (congrArg _ (requestArrives_ready q h rfl ?_ ?_))
  · refine (withSide_reached hb hr _).trans ?_
    rw [← eventWoken_eq]
    simp only [sessionBytes, session_eventWoken]
    rfl
  · exact (Presents.eventWoken _ sd).lnk.trans (eventPassed_lnk _ sd)

/-- Settles O24: the session-start event on an ACTIVE and on an ASLEEP side. -/
theorem sessionStarts : Obligations.SessionStarts := by
  intro s p q b sd h hb hr
  rw [exec_startSession q h hb hr]
  unfold eventWoken
  refine ⟨fun ha => ?_, fun ha => ?_⟩
  · rw [if_pos ha, ha]
    rfl
  · rw [if_neg (by rw [ha]; exact Bool.false_ne_true), ha]
    rfl

/-! ### SET LANGUAGE (R59) -/

section

variable {s : State} {p : Port} {b v : Byte} {sd : Side} (q : Byte) (hb : sideOf b = some sd)
  (hr : roleReachesSide (s.link p).role sd = true)

include hb hr

theorem setLanguage_badField (hv : fourOf v = none) :
    (receiving s p .hunt).setLanguage p b v = (.answer .badField [], receiving s p .hunt) := by
  refine (withSide_reached hb hr _).trans ?_
  simp only [hv]

theorem setLanguage_asleep {l : Fin 4} (hv : fourOf v = some l) (ha : (s.records sd).session.active = false) :
    (receiving s p .hunt).setLanguage p b v = (.answer .sideAsleep [], receiving s p .hunt) := by
  refine (withSide_reached hb hr _).trans ?_
  simp only [hv]
  exact if_neg (by rw [show (receiving s p .hunt).records sd = s.records sd from rfl, ha]; exact Bool.false_ne_true)

theorem setLanguage_active {l : Fin 4} (hv : fourOf v = some l) (ha : (s.records sd).session.active = true) :
    (receiving s p .hunt).setLanguage p b v = (.answer .ok [], (receiving s p .hunt).putLanguage sd l) := by
  refine (withSide_reached hb hr _).trans ?_
  simp only [hv]
  exact if_pos ha

end

/-- SET LANGUAGE with a reply that changes nothing. -/
theorem exec_setLanguage_unchanged {s : State} {p : Port} {b v : Byte} {st : Status} (q : Byte) (h : ready s p 0x22)
    (hc : (receiving s p .hunt).setLanguage p b v = (.answer st [], receiving s p .hunt)) :
    exec (.setLanguage p q b v) s = .next (answered s p 0x22 q st []) :=
  (exec_requestOf (r := .setLanguage b v) rfl s).trans (congrArg _ (requestArrives_unchanged (r := .setLanguage b v) q h rfl hc))

theorem putLanguage_same {s : State} {sd : Side} {l : Fin 4} (h : (s.records sd).session.language = l) : s.putLanguage sd l = s :=
  if_pos h

/-- Another language of a session, and a prompt that its region shows rendered in it (R59, R143). -/
theorem putLanguage_eq {s : State} {sd : Side} {l : Fin 4} (h : (s.records sd).session.language ≠ l) : s.putLanguage sd l =
    languageTaken (s.onSession sd fun x => { x with language := l }) sd (s.records sd).session.language := by
  rw [languageTaken_eq, State.records_onSession]
  exact (if_neg h).trans (if_pos (Ne.symm h)).symm

theorem Presents.languageTaken (s : State) (sd : Side) (old : Fin 4) : Presents s (languageTaken s sd old) := by
  unfold Claims.languageTaken
  split
  · exact .renderBegun s sd
  · exact .refl s

theorem renderBegun_frame (s : State) (sd : Side) :
    renderBegun s sd = { s with psc := (renderBegun s sd).psc, dsp := (renderBegun s sd).dsp } := by
  unfold renderBegun
  rw [readDropped_transfer]
  rfl

theorem languageTaken_frame (s : State) (sd : Side) (old : Fin 4) : languageTaken s sd old =
    { s with psc := (languageTaken s sd old).psc, dsp := (languageTaken s sd old).dsp } := by
  unfold languageTaken
  split
  · exact renderBegun_frame s sd
  · rfl

theorem languageTaken_unshown {s : State} {sd : Side} (h : (s.region sd).showsPrompt = false) (old : Fin 4) :
    languageTaken s sd old = s := if_neg fun z => by rw [h] at z; exact Bool.false_ne_true z.2

theorem region_renderBegun (s : State) (sd : Side) : (renderBegun s sd).region sd = regionRendered s sd :=
  State.region_onRegion _ _ _

theorem transfer_renderBegun (s : State) (sd : Side) : (renderBegun s sd).psc.transfer = transferDropped sd s.psc.transfer := by
  unfold renderBegun
  rw [readDropped_transfer]
  rfl

theorem region_languageTaken_other (s : State) (sd : Side) (old : Fin 4) :
    (languageTaken s sd old).region (otherSide sd) = s.region (otherSide sd) := by
  unfold languageTaken
  split
  · unfold renderBegun
    rw [region_onRegion_other, readDropped_transfer]
    rfl
  · rfl

/-- A render reads the countdown of its side and no session. -/
theorem rendered_onSession (s : State) (sd : Side) (f : Session → Session) (l : Fin 4) (fm : List (Nat × TextItem))
    (todo : List (Nat × LineElem)) (r : Region) : rendered (s.onSession sd f) sd l fm todo r = rendered s sd l fm todo r := by
  unfold rendered
  rw [State.formElems_congr (s := s) (t := s.onSession sd f) fun n l => State.resolve_congr rfl rfl n l, State.records_onSession]

/-- A region that shows a prompt is rendered from its page record in the new language, and the read of the render it replaces is to be
discarded (R59, R143). -/
theorem languageTaken_shown {s : State} {sd : Side} {n : Nat} {g : PageRecord} {l : Fin 4} (hl : (s.records sd).session.language ≠ l)
    (hg : (s.region sd).content = .prompt n g) :
    languageTaken (s.onSession sd fun x => { x with language := l }) sd (s.records sd).session.language =
      renderBegun (s.onSession sd fun x => { x with language := l }) sd ∧
    regionRendered (s.onSession sd fun x => { x with language := l }) sd = rendered s sd l [] (pageElems g) (s.region sd) := by
  have hr : (s.onSession sd fun x => { x with language := l }).region sd = s.region sd := rfl
  constructor
  · refine if_pos ⟨?_, ?_⟩
    · rw [State.records_onSession]
      exact hl.symm
    · rw [hr]
      unfold Region.showsPrompt
      rw [hg]
  · unfold regionRendered
    rw [hr, hg, State.records_onSession]
    exact rendered_onSession s sd _ l [] (pageElems g) (s.region sd)

/-- SET LANGUAGE with another language on an ACTIVE side. -/
theorem exec_setLanguage_changed {s : State} {p : Port} {b v : Byte} {sd : Side} {l : Fin 4} (q : Byte) (h : ready s p 0x22)
    (hb : sideOf b = some sd) (hr : roleReachesSide (s.link p).role sd = true) (hv : fourOf v = some l)
    (ha : (s.records sd).session.active = true) (hl : (s.records sd).session.language ≠ l) :
    exec (.setLanguage p q b v) s = .next (answered
      (languageTaken (s.onSession sd fun x => { x with language := l }) sd (s.records sd).session.language) p 0x22 q .ok []) := by
  rw [answered_eq, ← languageTaken_receiving]
  refine (exec_requestOf (r := .setLanguage b v) rfl s).trans (congrArg _ (requestArrives_ready (r := .setLanguage b v) q h rfl ?_
    (Presents.languageTaken (receiving (s.onSession sd fun x => { x with language := l }) p .hunt) sd _).lnk))
  exact (setLanguage_active hb hr hv ha).trans (congrArg _ (putLanguage_eq (s := receiving s p .hunt) hl))

/-! ### SET SPEECH MODE (R61) -/

section

variable {s : State} {p : Port} {b v : Byte} {sd : Side} (hb : sideOf b = some sd)
  (hr : roleReachesSide (s.link p).role sd = true)

include hb hr

theorem setSpeechMode_badField (hv : speechModeOf v = none) :
    (receiving s p .hunt).setSpeechMode p b v = (.answer .badField [], receiving s p .hunt) := by
  refine (withSide_reached hb hr _).trans ?_
  simp only [hv]

theorem setSpeechMode_asleep {m : SpeechMode} (hv : speechModeOf v = some m) (ha : (s.records sd).session.active = false) :
    (receiving s p .hunt).setSpeechMode p b v = (.answer .sideAsleep [], receiving s p .hunt) := by
  refine (withSide_reached hb hr _).trans ?_
  simp only [hv]
  exact if_neg (by rw [show (receiving s p .hunt).records sd = s.records sd from rfl, ha]; exact Bool.false_ne_true)

theorem setSpeechMode_active {m : SpeechMode} (hv : speechModeOf v = some m) (ha : (s.records sd).session.active = true) :
    (receiving s p .hunt).setSpeechMode p b v = (.answer .ok [], (receiving s p .hunt).putMode sd m) := by
  refine (withSide_reached hb hr _).trans ?_
  simp only [hv]
  exact if_pos ha

end

theorem speechModeOf_eq_none {v : Byte} (h : 2 < v.toNat) : speechModeOf v = none := by
  rw [Option.eq_none_iff_forall_ne_some]
  exact fun m hm => absurd ((speechModeOf_isSome_iff v).1 ⟨m, hm⟩) (Nat.not_le.2 h)

/-- SET SPEECH MODE with a reply that changes nothing. -/
theorem exec_setSpeechMode_unchanged {s : State} {p : Port} {b v : Byte} {st : Status} (q : Byte) (h : ready s p 0x23)
    (hc : (receiving s p .hunt).setSpeechMode p b v = (.answer st [], receiving s p .hunt)) :
    exec (.setSpeechMode p q b v) s = .next (answered s p 0x23 q st []) :=
  (exec_setSpeechMode s p q b v).trans (congrArg _ (requestArrives_unchanged (r := .setSpeechMode b v) q h rfl hc))

theorem putMode_same {s : State} {sd : Side} {m : SpeechMode} (h : (s.records sd).session.mode = m) : s.putMode sd m = s := if_pos h

/-- A speech mode set is, beside the mode, speech going on. -/
theorem SpeechAlone.modeSet (s : State) (sd : Side) (m : SpeechMode) :
    SpeechAlone (s.onSession sd fun x => { x with mode := m }) (modeSet s sd m) := by
  by_cases hm : m = .off
  · subst hm
    exact modeSet_off_speech s sd
  · unfold Claims.modeSet
    simp only [if_neg hm]
    exact .settle _

/-- SET SPEECH MODE with another mode on an ACTIVE side. -/
theorem exec_setSpeechMode_changed {s : State} {p : Port} {b v : Byte} {sd : Side} {m : SpeechMode} (q : Byte) (h : ready s p 0x23)
    (hb : sideOf b = some sd) (hr : roleReachesSide (s.link p).role sd = true) (hv : speechModeOf v = some m)
    (ha : (s.records sd).session.active = true) (hm : (s.records sd).session.mode ≠ m) :
    exec (.setSpeechMode p q b v) s = .next (repliedWork (modeSet (receiving s p .hunt) sd m) p 0x23 q .ok []) := by
  refine (exec_setSpeechMode s p q b v).trans (congrArg _ (requestArrives_ready (r := .setSpeechMode b v) q h rfl ?_
    (Presents.modeSet _ sd m).lnk))
  exact (setSpeechMode_active hb hr hv ha).trans (congrArg _ (State.putMode_eq (s := receiving s p .hunt) hm))

/-- Settles O26: for each request the value's check, the ASLEEP side, the present value and another one. -/
theorem languageAndModeSet : Obligations.LanguageAndModeSet := by
  refine fun s p q b v sd hb hr => ⟨fun h => ⟨fun hv => ?_, fun l hv => ⟨fun ha => ?_, fun ha hl => ?_, fun ha hl => ?_⟩⟩,
    fun h => ⟨fun hv => ?_, fun m hv => ⟨fun ha => ?_, fun ha hm => ?_, fun ha hm => ?_⟩⟩⟩
  · exact exec_setLanguage_unchanged q h (setLanguage_badField hb hr ((fourOf_eq_none_iff v).2 hv))
  · exact exec_setLanguage_unchanged q h (setLanguage_asleep hb hr hv ha)
  · refine exec_setLanguage_unchanged q h ((setLanguage_active hb hr hv ha).trans ?_)
    rw [putLanguage_same (s := receiving s p .hunt) hl]
  · have hf := languageTaken_frame (s.onSession sd fun x => { x with language := l }) sd (s.records sd).session.language
    refine ⟨_, exec_setLanguage_changed q h hb hr hv ha hl, ?_, rfl, (congrArg State.ptb hf :), (congrArg State.nq hf :),
      (congrArg State.spe hf :), fun hp => ?_,
      region_languageTaken_other (s.onSession sd fun x => { x with language := l }) sd _, fun n g hg => ?_⟩
    · rw [answered_eq, answered_eq, ← languageTaken_receiving]
      exact (Presents.languageTaken (receiving (s.onSession sd fun x => { x with language := l }) p .hunt) sd _).repliedWork ..
    · exact (congrArg State.dsp (languageTaken_unshown (s := s.onSession sd fun x => { x with language := l }) hp _) :)
    · obtain ⟨hw, hre⟩ := languageTaken_shown hl hg
      rw [hw]
      refine ⟨(region_renderBegun _ sd).trans hre, fun page ht => (transfer_renderBegun _ sd).trans ?_⟩
      rw [State.onSession_psc, ht]
      exact if_pos rfl
  · exact exec_setSpeechMode_unchanged q h (setSpeechMode_badField hb hr (speechModeOf_eq_none hv))
  · exact exec_setSpeechMode_unchanged q h (setSpeechMode_asleep hb hr hv ha)
  · refine exec_setSpeechMode_unchanged q h ((setSpeechMode_active hb hr hv ha).trans ?_)
    rw [putMode_same (s := receiving s p .hunt) hm]
  · have hs := SpeechAlone.modeSet (receiving s p .hunt) sd m
    refine ⟨_, exec_setSpeechMode_changed q h hb hr hv ha hm, hs.dsp, hs.tgn, rfl, ?_⟩
    rw [answered_eq]
    exact (Presents.modeSet (receiving s p .hunt) sd m).repliedWork ..

end Sys2Proof.Machine
end

section
/-! SET CYCLE (O30). -/

namespace Sys2Proof.Machine

open Sys2Proof.Claims

/-! ### The fields (R69) -/

theorem phaseOf_eq_none {b : Byte} (h : 8 < b.toNat) : phaseOf b = none := by
  have hn : ∀ c : Byte, c.toNat ≤ 8 → b ≠ c := by
    rintro c hc rfl
    exact absurd h (Nat.not_lt.2 hc)
  simp [phaseOf, hn]

theorem boolOf_eq_none {b : Byte} (h : 1 < b.toNat) : boolOf b = none := by
  rw [Option.eq_none_iff_forall_ne_some]
  exact fun v hv => absurd ((boolOf_isSome_iff b).1 ⟨v, hv⟩) (Nat.not_le.2 h)

theorem countdownOf_eq_none {n : Word16} (h : 35999 < n.toNat) : countdownOf n = none := if_neg (Nat.not_le.2 h)

/-- A field that is present and out of range (R69). -/
theorem optField_eq_none {α : Type} {present : Bool} {v : Option α} (h : present = true) (hv : v = none) :
    optField present v = none := by
  subst h hv
  rfl

/-- A field that is absent, or present and in range (R69). -/
theorem optField_eq_some {α : Type} {present : Bool} {v : Option α} {x : α} (h : present = true → v = some x) :
    optField present v = some (if present then some x else none) := by
  cases present
  · rfl
  · rw [h rfl]
    rfl

/-- The written record in the words of the statement (R69). -/
theorem Cycle.written_eq (c : Cycle) (ph : Option Phase) (n : Option Nat) (r : Option Bool) : c.written ph n r = cycleAfter c ph n r := by
  unfold Cycle.written cycleAfter
  simp only [Cycle.mk.injEq, true_and]
  cases r.getD c.running
  · simp
  · by_cases h : n.getD c.countdown = 0 <;> simp [h]

/-! ### A cycle record that takes new contents (R70, R71, R146) -/

/-- PHASE is offered as though nothing else had changed. -/
theorem offerMasked_cycleRewritten (s : State) (sd : Side) (c : Cycle) (n : Notice) :
    (cycleRewritten s sd c).offerMasked n = cycleRewritten (s.offerMasked n) sd c :=
  offerEach_comm (g := fun s => cycleRewritten s sd c) (fun _ => rfl) (fun _ _ _ => rfl) n _ s

theorem putCycle_eq (s : State) (sd : Side) (c : Cycle) : s.putCycle sd c allPorts =
    if c.countdown = (s.records sd).cycle.countdown then cycleRewritten (phaseOffered s sd (s.records sd).cycle.phase c.phase) sd c
    else (cycleRewritten (phaseOffered s sd (s.records sd).cycle.phase c.phase) sd c).countdownChanged sd := by
  have h : (if c.phase = (s.records sd).cycle.phase then cycleRewritten s sd c
      else (cycleRewritten s sd c).offerMasked (phaseNotice sd (s.records sd).cycle.phase c.phase)) =
      cycleRewritten (phaseOffered s sd (s.records sd).cycle.phase c.phase) sd c := by
    unfold phaseOffered
    split
    · rfl
    · exact offerMasked_cycleRewritten s sd c _
  rw [← h]
  rfl

theorem phaseOffered_frame (s : State) (sd : Side) (old new : Phase) :
    phaseOffered s sd old new = { s with nq := (phaseOffered s sd old new).nq } := by
  unfold phaseOffered
  split
  · rfl
  · exact State.offerMasked_eq s _

theorem phaseOffered_receiving (s : State) (p : Port) (x : Receive) (sd : Side) (old new : Phase) :
    phaseOffered (receiving s p x) sd old new = receiving (phaseOffered s sd old new) p x := by
  unfold phaseOffered
  split
  · rfl
  · exact offerMasked_receiving s p x _

theorem countdownChanged_receiving (s : State) (p : Port) (x : Receive) (sd : Side) :
    (receiving s p x).countdownChanged sd = receiving (s.countdownChanged sd) p x := by
  rw [countdownChanged_eq, countdownChanged_eq]
  rfl

theorem putCycle_receiving (s : State) (p : Port) (x : Receive) (sd : Side) (c : Cycle) :
    (receiving s p x).putCycle sd c allPorts = receiving (s.putCycle sd c allPorts) p x := by
  have hw : ∀ u : State, cycleRewritten (receiving u p x) sd c = receiving (cycleRewritten u sd c) p x := fun _ => rfl
  rw [putCycle_eq, putCycle_eq, show (receiving s p x).records = s.records from rfl, phaseOffered_receiving, hw,
    countdownChanged_receiving]
  exact (apply_ite (fun u => receiving u p x) (c.countdown = (s.records sd).cycle.countdown) _ _).symm

theorem Presents.putCycle (s : State) (sd : Side) (c : Cycle) :
    Presents (cycleRewritten (phaseOffered s sd (s.records sd).cycle.phase c.phase) sd c) (s.putCycle sd c allPorts) := by
  rw [putCycle_eq]
  split
  · exact .refl _
  · exact .countdownChanged _ sd

/-- What a rewritten cycle record changes: the records, the queues, the notes of overtaken ends, and lines of the display. -/
theorem putCycle_frame (s : State) (sd : Side) (c : Cycle) : s.putCycle sd c allPorts =
    { s with
      nq := (phaseOffered s sd (s.records sd).cycle.phase c.phase).nq
      scu := (s.putCycle sd c allPorts).scu
      dsp := (s.putCycle sd c allPorts).dsp
      overtaken := (s.putCycle sd c allPorts).overtaken } := by
  rw [putCycle_eq, countdownChanged_eq, phaseOffered_frame]
  split <;> rfl

theorem dsp_putCycle_same {s : State} {sd : Side} {c : Cycle} (h : c.countdown = (s.records sd).cycle.countdown) :
    (s.putCycle sd c allPorts).dsp = s.dsp := by
  rw [putCycle_eq, if_pos h, phaseOffered_frame]
  rfl

theorem region_putCycle_other (s : State) (sd : Side) (c : Cycle) :
    (s.putCycle sd c allPorts).region (otherSide sd) = s.region (otherSide sd) := by
  rw [putCycle_eq, countdownChanged_eq, phaseOffered_frame]
  split
  · rfl
  · exact region_onRegion_other _ sd _

/-- The lines that show the countdown follow it (R146). -/
theorem linesFollow_putCycle {s : State} {sd : Side} {c : Cycle} (h : c.countdown ≠ (s.records sd).cycle.countdown) :
    linesFollow s (s.putCycle sd c allPorts) sd c.countdown := by
  rw [putCycle_eq, if_neg h, countdownChanged_eq, phaseOffered_frame]
  unfold linesFollow
  rw [State.region_onRegion]
  have hr : ∀ q, (cycleRewritten ({ s with nq := q } : State) sd c).region sd = s.region sd := fun _ => rfl
  have hc : ∀ u : State, ((cycleRewritten u sd c).records sd).cycle = c := fun u =>
    congrArg SideRecords.cycle (State.records_onCycle u sd fun _ => c)
  unfold regionCounted
  rw [hr, hc]
  split <;> exact ⟨rfl, rfl⟩

/-! ### The request (R69) -/

section

variable {s : State} {p : Port} {b pr ph run : Byte} {n : Word16} {sd : Side} (hb : sideOf b = some sd)
  (hr : roleReachesSide (s.link p).role sd = true)

include hb hr

theorem setCycle_badField (h : (pr.getLsbD 0 = true ∧ 8 < ph.toNat) ∨ (pr.getLsbD 1 = true ∧ 35999 < n.toNat) ∨
    (pr.getLsbD 2 = true ∧ 1 < run.toNat)) :
    (receiving s p .hunt).setCycle p b pr ph n run = (.answer .badField [], receiving s p .hunt) := by
  refine (withSide_reached hb hr _).trans ?_
  obtain ⟨hp, hv⟩ | ⟨hp, hv⟩ | ⟨hp, hv⟩ := h
  · rw [optField_eq_none hp (phaseOf_eq_none hv)]
  · rw [optField_eq_none hp (countdownOf_eq_none hv)]
    cases optField (pr.getLsbD 0) (phaseOf ph) <;> rfl
  · rw [optField_eq_none hp (boolOf_eq_none hv)]
    cases optField (pr.getLsbD 0) (phaseOf ph) <;> cases optField (pr.getLsbD 1) (countdownOf n) <;> rfl

theorem setCycle_ok {f : Option Phase} {m : Option Nat} {r : Option Bool} (hf : optField (pr.getLsbD 0) (phaseOf ph) = some f)
    (hm : optField (pr.getLsbD 1) (countdownOf n) = some m) (hx : optField (pr.getLsbD 2) (boolOf run) = some r) :
    (receiving s p .hunt).setCycle p b pr ph n run = (.answer .ok (cycleBytes (cycleAfter (s.records sd).cycle f m r)),
      (receiving s p .hunt).putCycle sd (cycleAfter (s.records sd).cycle f m r) allPorts) := by
  refine (withSide_reached hb hr _).trans ?_
  rw [hf, hm, hx]
  simp only [Cycle.written_eq]
  rfl

end

theorem wellSized_setCycle {pr : Byte} (h : pr.toNat < 8) (b ph : Byte) (n : Word16) (run : Byte) :
    wellSized (.setCycle b pr ph n run) = true := decide_eq_true h

/-- Settles O30: a refusal that changes nothing, and the record written with what follows it. -/
theorem cycleWritten : Obligations.CycleWritten := by
  intro s p q b pr ph run n sd h hp hb hr
  refine ⟨fun hf => ?_, fun x r hx hn hv => ?_⟩
  · exact (exec_requestOf (r := .setCycle b pr ph n run) rfl s).trans (congrArg _ (requestArrives_unchanged
      (r := .setCycle b pr ph n run) q h (wellSized_setCycle hp ..) (setCycle_badField hb hr hf)))
  · have hc := setCycle_ok (s := s) (p := p) (b := b) (pr := pr) (ph := ph) (run := run) (n := n) (sd := sd) hb hr
      (optField_eq_some fun e => by rwa [if_pos e] at hx) (optField_eq_some fun e => if_pos (hn e))
      (optField_eq_some fun e => by rwa [if_pos e] at hv)
    generalize hd : cycleAfter (s.records sd).cycle _ _ _ = c at hc
    have hq := Presents.putCycle (receiving s p .hunt) sd c
    refine ⟨answered (s.putCycle sd c allPorts) p 0x26 q .ok (cycleBytes c), c, ?_, rfl, ?_, ?_, ?_,
      region_putCycle_other s sd c, fun hne => linesFollow_putCycle hne, fun he => dsp_putCycle_same he⟩
    · rw [answered_eq, ← putCycle_receiving]
      exact (exec_requestOf (r := .setCycle b pr ph n run) rfl s).trans (congrArg _ (requestArrives_ready
        (r := .setCycle b pr ph n run) q h (wellSized_setCycle hp ..) hc (by rw [putCycle_frame])))
    · exact (congrArg State.nq (putCycle_frame s sd c) :)
    · rw [answered_eq, answered_eq, ← putCycle_receiving]
      have hw : receiving (cycleRewritten (phaseOffered s sd (s.records sd).cycle.phase c.phase) sd c) p .hunt =
          cycleRewritten (phaseOffered (receiving s p .hunt) sd (s.records sd).cycle.phase c.phase) sd c := by
        rw [phaseOffered_receiving]
        rfl
      rw [hw]
      exact hq.repliedWork ..
    · rw [putCycle_frame]
      intro k hk
      cases k with
      | links | notices | sides | display | overtaken => simp at hk
      | _ => rfl

end Sys2Proof.Machine
end

section
/-! Contacts (O48), key events (O49) and knobs (O51). -/

namespace Sys2Proof.Machine

open Sys2Proof.Claims

/-! ### Key records (R75) -/

theorem KeyBank.update_update (b : KeyBank) (k : Key) (f g : KeyRecord → KeyRecord) :
    (b.update k f).update k g = b.update k fun r => g (f r) := by cases k <;> rfl

theorem keyRecord_onKey_eq (s : State) (sd sd' : Side) (k k' : Key) (f : KeyRecord → KeyRecord) :
    (s.onKey sd k f).keyRecord sd' k' = if sd' = sd ∧ k' = k then f (s.keyRecord sd k) else s.keyRecord sd' k' := by
  have h : (s.onKey sd k f).ksc.sides.get sd' = _ := PerSide.get_update _ _ _ _
  unfold State.keyRecord
  rw [h]
  by_cases e : sd' = sd
  · subst e
    rw [if_pos rfl]
    by_cases e' : k' = k
    · subst e'
      simp
    · simp [e', KeyBank.get_update_ne]
  · simp [e]

theorem knob_onKey (s : State) (sd sd' : Side) (k : Key) (f : KeyRecord → KeyRecord) :
    ((s.onKey sd k f).ksc.sides.get sd').knob = (s.ksc.sides.get sd').knob := by
  have h : (s.onKey sd k f).ksc.sides.get sd' = _ := PerSide.get_update _ _ _ _
  rw [h]
  split <;> rfl

theorem onKey_changesOnly (s : State) (sd : Side) (k : Key) (f : KeyRecord → KeyRecord) : changesOnly [.keys] s (s.onKey sd k f) := by
  intro b hb
  cases b with
  | keys => simp at hb
  | overtaken => exact ⟨rfl, rfl⟩
  | _ => rfl

theorem onKey_onKey (s : State) (sd : Side) (k : Key) (f g : KeyRecord → KeyRecord) :
    (s.onKey sd k f).onKey sd k g = s.onKey sd k fun r => g (f r) := by
  unfold State.onKey
  simp only [PerSide.update_update, KeyBank.update_update]

/-- A contact that changes while the keys are scanned (R75; log 36). -/
theorem contactChanged_eq (closed : Bool) (r : KeyRecord) : contactChanged closed r =
    { r with
      closed := closed
      state := match r.state with
        | .idle => if closed then .making 0 else .idle
        | .making n => if closed then .making n else .idle
        | .down => if closed then .down else .breaking 0
        | .breaking n => if closed then .down else .breaking n
      makeLate := r.makeLate || (match r.state with | .making n => !closed && decide (3 ≤ n) | _ => false)
      breakLate := r.breakLate || (match r.state with | .breaking n => closed && decide (3 ≤ n) | _ => false) } := by
  obtain ⟨c, st, held, spent, ml, bl⟩ := r
  cases st <;> cases closed <;> simp [contactChanged] <;> rfl

theorem moveContact_unscanned {s : State} (h : s.ksc.scanning = false) (sd : Side) (k : Key) (closed : Bool) :
    s.moveContact sd k closed = s.onKey sd k fun r => { r with closed := closed } := by
  unfold State.moveContact
  rw [h]
  rfl

theorem moveContact_scanned {s : State} (h : s.ksc.scanning = true) (sd : Side) (k : Key) (closed : Bool) :
    s.moveContact sd k closed = s.onKey sd k (contactChanged closed) := if_pos h

/-! ### Wakes (R54, R79) -/

theorem eventWoken_onKey (s : State) (sd sd' : Side) (k : Key) (f : KeyRecord → KeyRecord) :
    eventWoken (s.onKey sd k f) sd' = (eventWoken s sd').onKey sd k f :=
  eventWoken_inputsMoved (a := id) (b := fun x => { x with sides := x.sides.update sd fun y => { y with keys := y.keys.update k f } })
    (fun _ _ => rfl) s sd'

/-- A wake spends its key, and is a session-start event. -/
theorem wakeKey_eq (s : State) (sd : Side) (k : Key) :
    s.wakeKey sd k = eventWoken (s.onKey sd k fun r => { r with spent := true }) sd := by
  rw [eventWoken_onKey, eventWoken_eq]
  rfl

theorem panelDark_iff (s : State) : s.panelDark = true ↔ s.dsp.power = .off ∨ s.dsp.power = .settling := decide_eq_true_iff

theorem panelDark_lit {s : State} (h : s.dsp.power = .on ∨ s.dsp.power = .dim) : s.panelDark = false := by
  unfold State.panelDark
  rcases h with e | e <;> rw [e] <;> rfl

/-! ### Confirmed makes and breaks (R75, R76, R78, R79) -/

section

variable {s : State} {sd : Side} {k : Key}

theorem confirmMake_late (h : (s.keyRecord sd k).makeLate = true) :
    s.confirmMake sd k = s.onKey sd k fun r => { r with makeLate := false } := if_pos h

theorem confirmMake_idle (h : (s.keyRecord sd k).makeLate = false) (hs : ∀ n, (s.keyRecord sd k).state ≠ .making n) :
    s.confirmMake sd k = s := by
  unfold State.confirmMake
  rw [h, if_neg Bool.false_ne_true]
  cases e : (s.keyRecord sd k).state with
  | making n => exact absurd e (hs n)
  | idle | down | breaking => rfl

theorem confirmMake_making {n : Nat} (h : (s.keyRecord sd k).makeLate = false) (hs : (s.keyRecord sd k).state = .making n) :
    s.confirmMake sd k = (s.onKey sd k madeKey).takeMake sd k := by
  unfold State.confirmMake
  rw [h, if_neg Bool.false_ne_true, hs]

theorem takeMake_lit (h : s.keyCheckRuns = true ∨ s.dsp.power = .on ∨ s.dsp.power = .dim) : s.takeMake sd k = s := by
  unfold State.takeMake
  rcases h with h | h
  · exact if_pos h
  · rw [panelDark_lit h]
    exact ite_self s

theorem takeMake_dark (h : s.keyCheckRuns = false) (hd : s.dsp.power = .off ∨ s.dsp.power = .settling) :
    s.takeMake sd k = s.wakeKey sd k := by
  unfold State.takeMake
  rw [h, if_neg Bool.false_ne_true, if_pos ((panelDark_iff s).2 hd)]

theorem break_late (h : (s.keyRecord sd k).breakLate = true) :
    s.confirmBreak sd k = (s.onKey sd k fun r => { r with breakLate := false }) ∧
    s.pressKey sd k = s.onKey sd k fun r => { r with breakLate := false } := ⟨if_pos h, if_pos h⟩

theorem break_idle (h : (s.keyRecord sd k).breakLate = false) (hs : ∀ n, (s.keyRecord sd k).state ≠ .breaking n) :
    s.confirmBreak sd k = s ∧ s.pressKey sd k = s := by
  unfold State.confirmBreak State.pressKey
  rw [h, if_neg Bool.false_ne_true, if_neg Bool.false_ne_true]
  cases e : (s.keyRecord sd k).state with
  | breaking n => exact absurd e (hs n)
  | idle | down | making => exact ⟨rfl, rfl⟩

theorem break_spent {n : Nat} (h : (s.keyRecord sd k).breakLate = false) (hs : (s.keyRecord sd k).state = .breaking n)
    (hp : (s.keyRecord sd k).spent = true) :
    s.pressKey sd k = s ∧ s.confirmBreak sd k = s.onKey sd k fun r => { r with state := .idle } := by
  unfold State.confirmBreak State.pressKey
  rw [h, if_neg Bool.false_ne_true, if_neg Bool.false_ne_true, hs, hp]
  exact ⟨rfl, rfl⟩

theorem confirmBreak_unspent {n : Nat} (h : (s.keyRecord sd k).breakLate = false) (hs : (s.keyRecord sd k).state = .breaking n)
    (hp : (s.keyRecord sd k).spent = false) : s.confirmBreak sd k = s.pressKey sd k := by
  unfold State.confirmBreak
  rw [h, if_neg Bool.false_ne_true, hs, hp]
  rfl

theorem holdKey_idle (h : (s.keyRecord sd k).state ≠ .down ∨ (s.keyRecord sd k).spent = true) : s.holdKey sd k = s := by
  unfold State.holdKey
  cases e : (s.keyRecord sd k).state with
  | down => exact if_pos (h.resolve_left fun z => z e)
  | idle | making | breaking => rfl

end

/-- Settles O48: a contact that changes, and each confirmation by the state of its key. -/
theorem contactsFollowed : Obligations.ContactsFollowed := by
  refine ⟨fun s sd k f => ⟨onKey_changesOnly s sd k f, rfl, fun sd' k' => keyRecord_onKey_eq s sd sd' k k' f,
    fun sd' => knob_onKey s sd sd' k f⟩, fun s sd k closed => ⟨fun h => ?_, fun h => ?_⟩, fun s sd k => ?_⟩
  · exact congrArg _ (moveContact_unscanned h sd k closed)
  · exact congrArg _ ((moveContact_scanned h sd k closed).trans (congrArg _ (funext (contactChanged_eq closed))))
  · refine ⟨fun h => congrArg _ (confirmMake_late h), fun h => ⟨congrArg _ (break_late h).1, congrArg _ (break_late h).2⟩,
      fun h hs => congrArg _ (confirmMake_idle h hs), fun n h hs => ⟨fun hd => ?_, fun hc hd => ?_⟩,
      fun h hs => ⟨congrArg _ (break_idle h hs).1, congrArg _ (break_idle h hs).2⟩,
      fun n h hs => ⟨fun hp => ⟨congrArg _ (break_spent h hs hp).1, congrArg _ (break_spent h hs hp).2⟩,
        fun hp => congrArg _ (confirmBreak_unspent h hs hp)⟩, fun h => congrArg _ (holdKey_idle h)⟩
    · exact congrArg _ ((confirmMake_making h hs).trans (takeMake_lit (s := s.onKey sd k madeKey) hd))
    · refine ⟨_, congrArg Host.Outcome.next ((confirmMake_making h hs).trans ?_), .eventWoken _ sd, rfl⟩
      rw [takeMake_dark (s := s.onKey sd k madeKey) hc hd, wakeKey_eq, onKey_onKey]
      rfl

end Sys2Proof.Machine
end

section
/-! Where an accepted key event goes (O49), and knobs (O51). -/

namespace Sys2Proof.Machine

open Sys2Proof.Claims

/-! ### KEY CHECK (R89, R185) -/

/-- A key event during KEY CHECK, in the words of the statement. -/
theorem checkedKey_eq (s : State) (sd : Side) (k : EventKey) (kd : EventKind) : checkedKey s sd k kd = s.routeTest sd k kd := by
  have hr : (s.offerRoom (keyNotice sd k kd true)).stu.result = s.stu.result := (Presents.offerRoom s _).result
  have hn : (⟨.key, some sd, none, eventKeyCode k, (eventKindCode kd).setWidth 16, true⟩ : Notice) = keyNotice sd k kd true := rfl
  unfold checkedKey State.routeTest
  simp only [hn]
  generalize s.offerRoom (keyNotice sd k kd true) = u at *
  rw [← hr]
  unfold resultSet
  split
  · rename_i h
    rw [h]
    rfl
  · rename_i h
    have hc : countedEvent u.stu.result = u.stu.result := by
      unfold countedEvent
      split
      · rename_i h'
        exact absurd h' (h _ _ _)
      · rfl
    rw [hc]

/-! ### Focus (R81) -/

theorem focusPrompt_eq_some {s : State} {sd : Side} {x : Prompt} : s.focusPrompt sd = some x ↔ focused s sd x := by
  unfold State.focusPrompt State.ownerPrompt focused
  rw [Option.filter_eq_some_iff, Option.bind_eq_some_iff, decide_eq_true_iff]

theorem matches_iff (x : Prompt) (k : Key) (hold : Bool) : x.matches k hold = true ↔ keyAnswers x k hold := by
  unfold Prompt.matches keyAnswers
  cases responseBit k with
  | none => simp
  | some n => cases hold <;> cases x.holdToAnswer <;> simp

/-- A session-start event changes the sides' records, the queues, the panel's power and notes of overtaken ends alone. -/
theorem eventPassed_frame (s : State) (sd : Side) : eventPassed s sd =
    { s with
      nq := (eventPassed s sd).nq, scu := (eventPassed s sd).scu, dsp := (eventPassed s sd).dsp
      overtaken := (eventPassed s sd).overtaken } := by
  unfold eventPassed sessionBegun
  split
  · rfl
  · rw [State.offerMasked_eq]
    rfl

theorem focused_eventPassed (s : State) (sd sd' : Side) (x : Prompt) : focused (eventPassed s sd) sd' x ↔ focused s sd' x := by
  rw [eventPassed_frame]
  rfl

/-! ### Tones and notices of key events (R80, R83, R84) -/

theorem keyToned_reject (s : State) (sd : Side) : keyToned s 15 sd .reject = s.rejectTone sd := by
  have hd : toneDropped s.tgn.current .reject = true ↔ ∃ t ∈ s.tgn.current, t.origin = .prompt .safety ∨ t.origin = .prompt .fault := by
    unfold toneDropped
    cases s.tgn.current <;> simp
  unfold keyToned State.rejectTone State.requestTone
  by_cases h : toneDropped s.tgn.current .reject = true
  · rw [if_pos h, if_pos (hd.1 h)]
  · rw [if_neg h, if_neg fun z => h (hd.2 z), toneReplaced_eq]
    unfold startTone
    cases s.pattern 15 <;> rfl

theorem keyOffered_eq (s : State) (sd : Side) (k : EventKey) (kd : EventKind) : keyOffered s sd k kd = s.offerKey sd k kd := by
  unfold keyOffered State.offerKey
  rw [show keyPort s sd = s.focusPort sd from rfl]
  cases s.focusPort sd <;> rfl

/-- Without a focused prompt a key event clicks and goes to the holder or the drum (R80, R84). -/
theorem routeKey_unfocused {s : State} {sd : Side} (h : ∀ x, ¬ focused s sd x) (k : Key) (hold : Bool) :
    s.routeKey sd k hold = keyOffered (keyToned s 14 sd .click) sd (.key k) (if hold then .hold else .press) := by
  have hn : s.focusPrompt sd = none := Option.eq_none_iff_forall_ne_some.2 fun x hx => h x (focusPrompt_eq_some.1 hx)
  unfold State.routeKey
  rw [hn, keyOffered_eq, keyToned_click]
  rfl

/-- A key event that does not match the focused prompt is rejected (R80, R83). -/
theorem routeKey_rejected {s : State} {sd : Side} {x : Prompt} {k : Key} {hold : Bool} (hx : focused s sd x)
    (h : ¬ keyAnswers x k hold) : s.routeKey sd k hold = keyToned s 15 sd .reject := by
  unfold State.routeKey
  rw [focusPrompt_eq_some.2 hx, keyToned_reject]
  exact if_neg fun z => h ((matches_iff x k hold).1 z)

theorem acceptKey_routed {k : Key} (hh : k ≠ .help) (hs : k ≠ .speech) (s : State) (sd : Side) (hold : Bool) :
    s.acceptKey sd k hold = s.routeKey sd k hold := by
  cases k with
  | help => exact absurd rfl hh
  | speech => exact absurd rfl hs
  | _ => rfl

/-! ### Key events (R78) -/

theorem takeKey_checked {s : State} (h : s.keyCheckRuns = true) (sd : Side) (k : Key) (hold : Bool) :
    s.takeKey sd k hold = checkedKey s sd (.key k) (if hold then .hold else .press) := by
  rw [checkedKey_eq]
  exact if_pos h

theorem takeKey_dark {s : State} (h : s.keyCheckRuns = false) (hd : s.dsp.power = .off ∨ s.dsp.power = .settling) (sd : Side) (k : Key)
    (hold : Bool) : s.takeKey sd k hold = eventWoken (s.onKey sd k fun r => { r with spent := true }) sd := by
  unfold State.takeKey
  rw [h, if_neg Bool.false_ne_true, if_pos ((panelDark_iff s).2 hd), wakeKey_eq]

theorem focused_unique {s : State} {sd : Side} {x y : Prompt} (hx : focused s sd x) (hy : focused s sd y) : x = y :=
  Option.some.inj ((focusPrompt_eq_some.2 hx).symm.trans (focusPrompt_eq_some.2 hy))

/-- Settles O49: the event taken in KEY CHECK, in the dark, and accepted. -/
theorem keysRouted : Obligations.KeysRouted := by
  refine ⟨fun s u c sd k hold hm => ?_, fun s sd x y hx hy => focused_unique hx hy⟩
  have he := exec_keyEvent hm
  obtain ⟨f, rfl⟩ := makesKeyEvent_onKey hm
  refine ⟨fun hc => ?_, fun hc hd => ?_, fun ha hh hs => ?_⟩
  · rw [he, takeKey_checked (s := s.onKey sd k f) hc]
  · refine ⟨_, he.trans (congrArg _ (takeKey_dark (s := s.onKey sd k f) hc hd sd k hold)), .eventWoken _ sd, rfl⟩
  · have hf : ∀ x, focused (eventPassed (s.onKey sd k f) sd) sd x ↔ focused s sd x := focused_eventPassed (s.onKey sd k f) sd sd
    rw [he, takeKey_accepted (s := s.onKey sd k f) ha, acceptKey_routed hh hs]
    exact ⟨fun hn => congrArg _ (routeKey_unfocused (fun x hx => hn x ((hf x).1 hx)) k hold),
      fun x hx hk => congrArg _ (routeKey_rejected ((hf x).2 hx) hk)⟩

/-! ### Contacts of a knob (R77) -/

theorem onKnob_congr {s : State} {sd : Side} {f g : Knob → Knob} (h : f (s.ksc.sides.get sd).knob = g (s.ksc.sides.get sd).knob) :
    s.onKnob sd f = s.onKnob sd g := by
  unfold State.onKnob
  rw [PerSide.update_congr s.ksc.sides sd (g := fun x => { x with knob := g x.knob }) (by rw [h])]

theorem onKnob_id {s : State} {sd : Side} {f : Knob → Knob} (h : f (s.ksc.sides.get sd).knob = (s.ksc.sides.get sd).knob) :
    s.onKnob sd f = s := by
  unfold State.onKnob
  rw [PerSide.update_id s.ksc.sides sd (by rw [h])]

theorem knobPos_rest_iff (p q : Bool) : knobPos p q = .rest ↔ (p || q) = false := by cases p <;> cases q <;> decide

/-- A seeking knob, or one that jumps to the opposite position, seeks until REST. -/
theorem Knob.moved_seeks {x : Knob} {p q : Bool} (h : x.seeking = true ∨ x.p ≠ p ∧ x.q ≠ q) :
    x.moved p q = (⟨p, q, x.leaving, p || q⟩, none) := by
  obtain ⟨a, b, l, k⟩ := x
  cases k with
  | true => cases p <;> cases q <;> rfl
  | false =>
    obtain ⟨hp, hq⟩ := h.resolve_left Bool.false_ne_true
    obtain rfl : a = !p := Bool.eq_not_iff.2 hp
    obtain rfl : b = !q := Bool.eq_not_iff.2 hq
    cases p <;> cases q <;> rfl

theorem Knob.moved_still {x : Knob} (h : x.seeking = false) : x.moved x.p x.q = (x, none) := by
  obtain ⟨a, b, l, k⟩ := x
  cases h
  cases a <;> cases b <;> rfl

/-- A knob that steps to a neighbouring position: leaving REST is recorded, coming to REST may complete a detent. -/
theorem Knob.moved_steps {x : Knob} {p q : Bool} (h : x.seeking = false) (hn : x.p = p ↔ x.q ≠ q) : x.moved p q =
    (⟨p, q, if (x.p || x.q) = true then x.leaving else if p then some .a else some .c, false⟩,
      detentOf x.leaving (knobPos x.p x.q) (knobPos p q)) := by
  obtain ⟨a, b, l, k⟩ := x
  cases h
  revert hn
  cases a <;> cases b <;> cases p <;> cases q <;> simp [Knob.moved, knobPos, neighbours]

/-- A detent is the step to REST from C, the knob having left through A, or from A, having left through C. -/
theorem detentOf_eq_some {l : Option KnobPos} {a b p q : Bool} {kd : EventKind} (h : detentOf l (knobPos a b) (knobPos p q) = some kd) :
    (p = false ∧ q = false) ∧ ((a = false ∧ b = true ∧ l = some .a ∧ kd = .cw) ∨ (a = true ∧ b = false ∧ l = some .c ∧ kd = .ccw)) := by
  unfold detentOf at h
  split at h
  · cases h
  · rename_i hr
    obtain ⟨hp, hq⟩ : p = false ∧ q = false := by
      rw [not_not, knobPos_rest_iff] at hr
      simpa using hr
    refine ⟨⟨hp, hq⟩, ?_⟩
    split at h
    · rename_i hc
      obtain ⟨hc, hl⟩ := hc
      cases h
      exact .inl (by revert hc; cases a <;> cases b <;> simp [knobPos, hl])
    · split at h
      · rename_i hc
        obtain ⟨hc, hl⟩ := hc
        cases h
        exact .inr (by revert hc; cases a <;> cases b <;> simp [knobPos, hl])
      · cases h

section

variable {s : State} {sd : Side} {p q : Bool}

theorem moveKnob_unscanned (h : s.ksc.scanning = false) : s.moveKnob sd p q = s.onKnob sd fun x => { x with p := p, q := q } := by
  unfold State.moveKnob
  rw [h]
  rfl

/-- A move that completes no detent moves the knob alone. -/
theorem moveKnob_quiet {y : Knob} (h : s.ksc.scanning = true) (hm : (s.ksc.sides.get sd).knob.moved p q = (y, none)) :
    s.moveKnob sd p q = s.onKnob sd fun _ => y := by
  unfold State.moveKnob
  rw [if_pos h]
  simp only [hm]

theorem moveKnob_detent {y : Knob} {kd : EventKind} (h : s.ksc.scanning = true)
    (hm : (s.ksc.sides.get sd).knob.moved p q = (y, some kd)) : s.moveKnob sd p q = (s.onKnob sd fun _ => y).takeDetent sd kd := by
  unfold State.moveKnob
  rw [if_pos h]
  simp only [hm]

end

/-- A step without a detent completes none. -/
theorem detentOf_eq_none {s : State} {sd : Side} {p q : Bool} (hs : s.ksc.scanning = true) (hk : (s.ksc.sides.get sd).knob.seeking = false)
    (h : ∀ kd u, ¬ makesDetent s (.knobPhaseChange sd p q) sd kd u) :
    detentOf (s.ksc.sides.get sd).knob.leaving (knobPos (s.ksc.sides.get sd).knob.p (s.ksc.sides.get sd).knob.q) (knobPos p q) = none := by
  refine Option.eq_none_iff_forall_ne_some.2 fun kd hd => ?_
  obtain ⟨⟨rfl, rfl⟩, hc⟩ := detentOf_eq_some hd
  exact h kd _ ⟨rfl, hs, hk, hc, rfl⟩

/-- A command that makes a detent is that detent taken (R77, R85). -/
theorem exec_detent {s u : State} {c : Instr} {sd : Side} {kd : EventKind} (h : makesDetent s c sd kd u) :
    exec c s = .next (u.takeDetent sd kd) := by
  obtain ⟨rfl, hs, hk, hc, rfl⟩ := h
  have hm : (s.ksc.sides.get sd).knob.moved false false =
      ({ (s.ksc.sides.get sd).knob with p := false, q := false }, some kd) := by
    generalize (s.ksc.sides.get sd).knob = x at *
    obtain ⟨a, b, l, k⟩ := x
    cases hk
    obtain ⟨rfl, rfl, rfl, rfl⟩ | ⟨rfl, rfl, rfl, rfl⟩ := hc <;> rfl
  refine congrArg Host.Outcome.next ((moveKnob_detent hs hm).trans ?_)
  rw [onKnob_congr (g := fun x => { x with p := false, q := false }) rfl]

theorem sessionEvent_accepted {s : State} (h : keysAccepted s) (sd : Side) : s.sessionEvent sd = eventPassed s sd := by
  obtain ⟨-, hp⟩ := h
  exact sessionEvent_lit (by rcases hp with e | e <;> rw [e] <;> decide) sd

theorem takeDetent_checked {s : State} (h : s.keyCheckRuns = true) (sd : Side) (kd : EventKind) :
    s.takeDetent sd kd = checkedKey s sd .knob kd := by
  rw [checkedKey_eq]
  exact if_pos h

theorem takeDetent_dark {s : State} (h : s.keyCheckRuns = false) (hd : s.dsp.power = .off ∨ s.dsp.power = .settling) (sd : Side)
    (kd : EventKind) : s.takeDetent sd kd = eventWoken s sd := by
  unfold State.takeDetent
  rw [h, if_neg Bool.false_ne_true, if_pos ((panelDark_iff s).2 hd), eventWoken_eq]

theorem takeDetent_accepted {s : State} (h : keysAccepted s) (sd : Side) (kd : EventKind) :
    s.takeDetent sd kd = keyOffered (eventPassed s sd) sd .knob kd := by
  unfold State.takeDetent
  rw [h.1, panelDark_lit h.2, sessionEvent_accepted h, keyOffered_eq]
  rfl

/-- Settles O51: the moves of a knob, then the detent by the state of the panel and of KEY CHECK. -/
theorem knobFollowed : Obligations.KnobFollowed := by
  refine ⟨fun s sd p q => ⟨fun h => ?_, ?_⟩, fun s u c sd kd hm => ?_⟩
  · exact congrArg Host.Outcome.next (moveKnob_unscanned h)
  · rintro h x rfl
    refine ⟨fun hk => ?_, fun _ hp hq => ?_, fun hk hp hq => ?_, fun hk hn hd => ?_⟩
    · exact congrArg Host.Outcome.next (moveKnob_quiet h (Knob.moved_seeks (.inl hk)))
    · exact congrArg Host.Outcome.next (moveKnob_quiet h (Knob.moved_seeks (.inr ⟨hp, hq⟩)))
    · subst hp hq
      exact congrArg Host.Outcome.next ((moveKnob_quiet h (Knob.moved_still hk)).trans (onKnob_id rfl))
    · exact congrArg Host.Outcome.next (moveKnob_quiet h ((Knob.moved_steps hk hn).trans
        (congrArg _ (detentOf_eq_none h hk hd))))
  · have he := exec_detent hm
    obtain ⟨-, -, -, -, rfl⟩ := hm
    refine ⟨fun hc => ?_, fun hc hd => ?_, fun ha => ?_⟩
    · exact he.trans (congrArg _ (takeDetent_checked (s := s.onKnob sd _) hc sd kd))
    · exact ⟨_, he.trans (congrArg _ (takeDetent_dark (s := s.onKnob sd _) hc hd sd kd)), .eventWoken _ sd, rfl⟩
    · exact he.trans (congrArg _ (takeDetent_accepted (s := s.onKnob sd _) ha sd kd))

end Sys2Proof.Machine
end

section
/-! The whole-part resets (O5). -/

namespace Sys2Proof.Machine

/-! ### A write that a reset cuts (R117; log 7) -/

@[simp] theorem length_cutBytes (m : Memory) (page offset free : Nat) (data : List Byte) :
    (cutBytes m page offset free data).length = data.length := List.length_mapIdx

/-- Each byte of a cut write is the one that the write carried or the one that stood there. -/
theorem getD_cutBytes (m : Memory) (page offset free : Nat) {data : List Byte} {i : Nat} (hi : i < data.length) :
    (cutBytes m page offset free data).getD i 0 =
      if Config.cutTakesNew (free + i) then data.getD i 0 else readByte m page (offset + i) := by
  simp [cutBytes, List.getD_eq_getElem?_getD, hi]

theorem storeKey_add (page offset i : Nat) : storeKey page (offset + i) = storeKey page offset + i := (Nat.add_assoc ..).symm

/-- After a cut write a byte of the store is old, or it is one that the write carried to its address. -/
theorem readByte_cutBytes {m : Memory} (h : Memory.wf m = true) (pg o free : Nat) (d : List Byte) (page offset : Nat) :
    readByte (writeBytes m pg o (cutBytes m pg o free d)) page offset = readByte m page offset ∨
      ∃ i < d.length, storeKey page offset = storeKey pg (o + i) ∧
        readByte (writeBytes m pg o (cutBytes m pg o free d)) page offset = d.getD i 0 := by
  have hr := readByte_writeBytes pg (storeKey page offset) (cutBytes m pg o free d) m o h
  rw [length_cutBytes] at hr
  by_cases hk : storeKey pg o ≤ storeKey page offset ∧ storeKey page offset < storeKey pg o + d.length
  · obtain ⟨i, he⟩ := Nat.exists_eq_add_of_le hk.1
    rw [← storeKey_add] at he
    have hj : storeKey page offset - storeKey pg o = i := by rw [he, storeKey_add]; omega
    have hi : i < d.length := by omega
    rw [if_pos hk, hj, getD_cutBytes _ _ _ _ hi] at hr
    cases hc : Config.cutTakesNew (free + i) with
    | true => exact .inr ⟨i, hi, he, by rw [hc] at hr; exact hr⟩
    | false =>
      rw [hc] at hr
      exact .inl (hr.trans (congrArg (mapGet unlistedByte m) he.symm))
  · rw [if_neg hk] at hr
    exact .inl hr

/-- What a cut of the transfer under way does to the store: nothing, or it cuts the write under way (R117). -/
theorem cutStore_cases (s : State) :
    s.cutStore = (s.psc.memory, s.free) ∨
    ∃ p pg o d, (s.psc.transfer = some (.write p pg o d) ∨ s.psc.transfer = some (.posted p pg o d)) ∧
      s.cutStore = (writeBytes s.psc.memory pg o (cutBytes s.psc.memory pg o s.free d), s.free + d.length) := by
  unfold State.cutStore
  split
  case h_1 p pg o d h => exact .inr ⟨p, pg, o, d, .inl h, rfl⟩
  case h_2 p pg o d h => exact .inr ⟨p, pg, o, d, .inr h, rfl⟩
  case h_3 => exact .inl rfl

/-- Without a write under way the store and the counter of free values stay. -/
theorem cutStore_calm {s : State}
    (h : ∀ p pg o d, s.psc.transfer ≠ some (.write p pg o d) ∧ s.psc.transfer ≠ some (.posted p pg o d)) :
    s.cutStore = (s.psc.memory, s.free) := by
  obtain he | ⟨p, pg, o, d, hw | hw, -⟩ := cutStore_cases s
  · exact he
  · exact absurd hw (h p pg o d).1
  · exact absurd hw (h p pg o d).2

/-- A cut keeps the store's canonical form. -/
theorem wf_cutStore {s : State} (h : Memory.wf s.psc.memory = true) : Memory.wf s.cutStore.1 = true := by
  obtain he | ⟨p, pg, o, d, -, he⟩ := cutStore_cases s <;> rw [he]
  · exact h
  · exact Memory.wf_writeBytes pg _ _ o h

/-- A byte of the store after the cut is old, or one that the write under way carried to its address (R117). -/
theorem readByte_cutStore {s : State} (h : Memory.wf s.psc.memory = true) (page offset : Nat) :
    readByte s.cutStore.1 page offset = readByte s.psc.memory page offset ∨
    ∃ p pg o d i, (s.psc.transfer = some (.write p pg o d) ∨ s.psc.transfer = some (.posted p pg o d)) ∧ i < d.length ∧
      storeKey page offset = storeKey pg (o + i) ∧ readByte s.cutStore.1 page offset = d.getD i 0 := by
  obtain he | ⟨p, pg, o, d, hw, he⟩ := cutStore_cases s <;> rw [he]
  · exact .inl rfl
  · refine (readByte_cutBytes h pg o s.free d page offset).imp_right ?_
    rintro ⟨i, hi, hk, hb⟩
    exact ⟨p, pg, o, d, i, hw, hi, hk, hb⟩

/-! ### The resets (R116, R117) -/

/-- Settles O5: both resets are their state as written; the store that an external reset leaves is what the cut makes of it. -/
theorem wholePartResets : Obligations.WholePartResets := by
  refine ⟨fun s => rfl, fun s => ⟨s.cutStore.2, s.cutStore.1, rfl, fun h => ?_, fun h => ?_⟩⟩
  · rw [cutStore_calm h]
    exact ⟨rfl, rfl⟩
  · obtain ⟨hm, -⟩ := h
    exact ⟨wf_cutStore hm, readByte_cutStore hm⟩

end Sys2Proof.Machine
end

section
/-! SET TONE, SET GLYPH and SET SEGMENT MAP (O42). -/

namespace Sys2Proof.Machine

open Sys2Proof.Claims

/-! ### SET TONE (R138) -/

theorem exec_setTone (s : State) (p : Port) (q n count : Byte) (notes : List (Byte × Byte)) :
    exec (.setTone p q n count notes) s = .next (s.requestArrives p q (.setTone n count notes)) := rfl

theorem setTone_badField (s : State) {n count : Byte} {notes : List (Byte × Byte)}
    (h : 15 < n.toNat ∨ 8 < count.toNat ∨ ∃ x ∈ notes, x.2 = 0) : s.setTone n count notes = (.answer .badField [], s) := by
  refine if_neg fun ⟨hn, hc, ha⟩ => ?_
  obtain h | h | ⟨x, hx, h0⟩ := h
  · omega
  · omega
  · exact of_decide_eq_true (List.all_eq_true.1 ha x hx) h0

theorem setTone_ok (s : State) {n count : Byte} {notes : List (Byte × Byte)} (hn : n.toNat ≤ 15) (hc : count.toNat ≤ 8)
    (ha : ∀ x ∈ notes, x.2 ≠ 0) : s.setTone n count notes = (.answer .ok [], s.setPattern n.toNat (notes.map noteOf)) :=
  if_pos ⟨hn, hc, List.all_eq_true.2 fun x hx => decide_eq_true (ha x hx)⟩

/-- A pattern written replaces the one of its number. -/
theorem pattern_setPattern {s : State} (h : mapWf [] s.tgn.patterns = true) (n k : Nat) (notes : List Note) :
    (s.setPattern n notes).pattern k = if k = n then notes else s.pattern k := mapGet_mapPut [] _ n k notes h

/-- SET TONE of a pattern in range writes it and answers. -/
theorem requestArrives_setTone {s : State} {p : Port} {n count : Byte} {notes : List (Byte × Byte)} (q : Byte) (h : ready s p 0x42)
    (hl : notes.length = count.toNat) (hn : n.toNat ≤ 15) (hc : count.toNat ≤ 8) (ha : ∀ x ∈ notes, x.2 ≠ 0) :
    s.requestArrives p q (.setTone n count notes) = answered (s.setPattern n.toNat (notes.map noteOf)) p 0x42 q .ok [] := by
  rw [answered_eq]
  exact requestArrives_ready (r := .setTone n count notes) q h (decide_eq_true hl) (setTone_ok _ hn hc ha) rfl

/-! ### SET GLYPH (R148) -/

theorem exec_setGlyph (s : State) (p : Port) (q code : Byte) (rows : List Byte) :
    exec (.setGlyph p q code rows) s = .next (s.requestArrives p q (.setGlyph code rows)) := rfl

/-- The font with the pattern of one code written. -/
def State.withGlyph (s : State) (code : Byte) (rows : List Byte) : State :=
  { s with dsp := { s.dsp with font := mapPut darkGlyph s.dsp.font code.toNat rows } }

theorem setGlyph_badField (s : State) {code : Byte} (h : code.toNat < 0x20 ∨ 0xDF < code.toNat) (rows : List Byte) :
    s.setGlyph code rows = (.answer .badField [], s) := if_neg (by omega)

theorem setGlyph_ok (s : State) {code : Byte} (h : 0x20 ≤ code.toNat ∧ code.toNat ≤ 0xDF) (rows : List Byte) :
    s.setGlyph code rows = (.answer .ok [], s.withGlyph code rows) := if_pos h

/-- SET GLYPH of a code in range writes the pattern and answers. -/
theorem requestArrives_setGlyph {s : State} {p : Port} {code : Byte} {rows : List Byte} (q : Byte) (h : ready s p 0x43)
    (hl : rows.length = 16) (hc : 0x20 ≤ code.toNat ∧ code.toNat ≤ 0xDF) :
    s.requestArrives p q (.setGlyph code rows) = answered (s.withGlyph code rows) p 0x43 q .ok [] := by
  rw [answered_eq]
  exact requestArrives_ready (r := .setGlyph code rows) q h (decide_eq_true hl) (setGlyph_ok _ hc rows) rfl

theorem getD_darkGlyph (r : Nat) : darkGlyph.getD r 0 = 0 := by
  unfold darkGlyph
  rw [List.getD_eq_getElem?_getD, List.getElem?_replicate]
  split <;> rfl

/-- A code that the font does not list reads as dark, whether as no rows or as sixteen dark ones. -/
theorem getD_mapGet_dark (code r : Nat) :
    ∀ font : List (Nat × List Byte), (mapGet [] font code).getD r 0 = (mapGet darkGlyph font code).getD r 0
  | [] => (getD_darkGlyph r).symm
  | e :: rest => by
    unfold mapGet
    split
    · rfl
    · exact getD_mapGet_dark code r rest

/-- A glyph written in the font is drawn by its rows, and every other one as before. -/
theorem glyphRow_withGlyph {s : State} (h : mapWf darkGlyph s.dsp.font = true) {code : Byte}
    (hc : 0x20 ≤ code.toNat ∧ code.toNat ≤ 0xDF) (rows : List Byte) (code' : Byte) (r : Nat) :
    (s.withGlyph code rows).glyphRow false code' r = if code' = code then rows.getD r 0 else s.glyphRow false code' r := by
  have hg := mapGet_mapPut darkGlyph s.dsp.font code.toNat code'.toNat rows h
  simp only [State.glyphRow, State.withGlyph, Bool.false_eq_true, if_false, getD_mapGet_dark, hg, BitVec.toNat_inj]
  by_cases he : code' = code
  · subst he
    simp only [hc, and_self, if_true]
  · simp only [he, if_false]

/-! ### SET SEGMENT MAP (R150) -/

theorem exec_setSegmentMap (s : State) (p : Port) (q : Byte) (entries : List Byte) :
    exec (.setSegmentMap p q entries) s = .next (s.requestArrives p q (.setSegmentMap entries)) := rfl

/-- A list with a value out of range is not read. -/
theorem readAll_none {α β : Type} {f : α → Option β} {x : α} (hf : f x = none) : ∀ {l : List α}, x ∈ l → readAll f l = none
  | y :: l, h => by
    unfold readAll
    obtain rfl | h := List.mem_cons.1 h
    · rw [hf]
    · rw [readAll_none hf h]
      cases f y <;> rfl

/-- A list of values in range is read value by value. -/
theorem readAll_map {α β : Type} {f : α → Option β} {g : α → β} : ∀ {l : List α}, (∀ x ∈ l, f x = some (g x)) → readAll f l = some (l.map g)
  | [], _ => rfl
  | x :: l, h => by
    obtain ⟨hx, hl⟩ := List.forall_mem_cons.1 h
    unfold readAll
    rw [hx, readAll_map hl]
    rfl

theorem setSegmentMap_badField (s : State) {entries : List Byte} (h : ∃ b ∈ entries, 39 < b.toNat ∧ b ≠ 0xFF) :
    s.setSegmentMap entries = (.answer .badField [], s) := by
  obtain ⟨b, hb, hn, hne⟩ := h
  have hf : segmentOf b = none := (if_neg hne).trans (if_neg (by omega))
  unfold State.setSegmentMap
  rw [readAll_none hf hb]

theorem setSegmentMap_ok (s : State) {entries : List Byte} (h : ∀ b ∈ entries, b.toNat ≤ 39 ∨ b = 0xFF) :
    s.setSegmentMap entries = (.answer .ok [],
      { s with dsp := { s.dsp with map := entries.map fun b => if b = 0xFF then none else some b.toNat } }) := by
  have hf : ∀ b ∈ entries, segmentOf b = some (if b = 0xFF then none else some b.toNat) := fun b hb => by
    unfold segmentOf
    by_cases hn : b = 0xFF
    · rw [if_pos hn, if_pos hn]
    · rw [if_neg hn, if_neg hn, if_pos ((h b hb).resolve_right hn)]
  unfold State.setSegmentMap
  rw [readAll_map hf]

/-- Settles O42: for each request the refusal, and the write with what its table then reads. -/
theorem libraryTablesSet : Obligations.LibraryTablesSet := by
  refine ⟨fun s p q n count notes h hl hs => ⟨fun hb => ?_, fun hn hc ha => ?_⟩,
    fun s p q code rows h hl hs => ⟨fun hb => ?_, fun hlo hhi => ?_⟩, fun s p q entries h hl => ⟨fun hb => ?_, fun ha => ?_⟩⟩
  · rw [exec_setTone, requestArrives_unchanged (r := .setTone n count notes) q h (decide_eq_true hl) (setTone_badField _ hb)]
    rfl
  · obtain ⟨-, -, hp, -⟩ := hs
    refine ⟨_, (exec_setTone ..).trans (congrArg _ (requestArrives_setTone q h hl hn hc ha)), rfl, ?_, fun n' hne => ?_⟩
    · exact (pattern_setPattern hp _ _ _).trans (if_pos rfl)
    · exact (pattern_setPattern hp _ _ _).trans (if_neg hne)
  · rw [exec_setGlyph, requestArrives_unchanged (r := .setGlyph code rows) q h (decide_eq_true hl) (setGlyph_badField _ hb rows)]
    rfl
  · obtain ⟨-, -, -, hf⟩ := hs
    refine ⟨_, (exec_setGlyph ..).trans (congrArg _ (requestArrives_setGlyph q h hl ⟨hlo, hhi⟩)), rfl, fun r _ => ?_,
      fun code' r hne => ?_⟩
    · exact (glyphRow_withGlyph hf ⟨hlo, hhi⟩ rows code r).trans (if_pos rfl)
    · exact (glyphRow_withGlyph hf ⟨hlo, hhi⟩ rows code' r).trans (if_neg hne)
  · rw [exec_setSegmentMap, requestArrives_unchanged (r := .setSegmentMap entries) q h (decide_eq_true hl) (setSegmentMap_badField _ hb)]
    rfl
  · rw [exec_setSegmentMap, answered_eq]
    exact congrArg _ (requestArrives_ready (r := .setSegmentMap entries) q h (decide_eq_true hl) (setSegmentMap_ok _ ha) rfl)

end Sys2Proof.Machine
end

section
/-! What the panel shows at a refresh (R148, R150 to R152, R154), and the timers of panel and tone (O52). -/

namespace Sys2Proof.Machine

/-! ### The timers (R139, R151, R152) -/

theorem exec_panelOff (s : State) : exec .panelOff s = .next s.darken := rfl
theorem exec_settlingEnd (s : State) : exec .settlingEnd s = .next s.settlingOut := rfl
theorem exec_blinkHalf (s : State) : exec .blinkHalf s = .next s.blinkHalf := rfl
theorem exec_toneNoteEnd (s : State) : exec .toneNoteEnd s = .next s.noteEnd := rfl
theorem exec_displayRefresh (s : State) : exec .displayRefresh s = .next { s with dsp := { s.dsp with panel := s.shownPanel } } := rfl

theorem State.anyActive_iff (s : State) :
    s.anyActive = true ↔ (s.records .lower).session.active = true ∨ (s.records .upper).session.active = true := Bool.or_eq_true_iff

theorem settlingOut_eq (s : State) : s.settlingOut =
    if s.dsp.power ≠ .settling then s
    else if (s.records .lower).session.active = true ∨ (s.records .upper).session.active = true then
      { s with dsp := { s.dsp with power := .on, settling := none } }
    else { s with dsp := { s.dsp with power := .dim, settling := none, panelOff := some ⟨0, s.cfg.panelOff⟩ } } := by
  rw [ite_not]
  refine if_congr Iff.rfl ?_ rfl
  exact if_congr s.anyActive_iff rfl rfl

theorem noteEnd_overtaken {s : State} (h : s.tgn.noteLate = true) :
    s.noteEnd = { s with tgn := { s.tgn with noteLate := false } } := if_pos h

theorem noteEnd_counted {s : State} (h : s.tgn.noteLate = false) :
    s.noteEnd = { s with tgn := { s.tgn with current := s.tgn.current.bind nextNote } } := if_neg (by rw [h]; decide)

/-! ### Segments (R149 to R151) -/

/-- The places found are those at which the map names the segment. -/
theorem mem_mapPlaces (g k : Nat) : ∀ (m : List (Option Nat)) (b : Nat), k ∈ mapPlaces g b m ↔ ∃ j, k = b + j ∧ m[j]? = some (some g)
  | [], b => by simp [mapPlaces]
  | e :: m, b => by
    have hs : (∃ j, k = b + j ∧ (e :: m)[j]? = some (some g)) ↔
        (k = b ∧ e = some g) ∨ ∃ j, k = b + 1 + j ∧ m[j]? = some (some g) := by
      constructor
      · rintro ⟨_ | j, hk, hj⟩
        · exact .inl ⟨hk, Option.some.inj hj⟩
        · exact .inr ⟨j, by omega, hj⟩
      · rintro (⟨hk, he⟩ | ⟨j, hk, hj⟩)
        · exact ⟨0, hk, congrArg some he⟩
        · exact ⟨j + 1, by omega, hj⟩
    have ih := mem_mapPlaces g k m (b + 1)
    unfold mapPlaces
    by_cases he : e = some g
    · rw [if_pos he, List.mem_cons, ih, hs, and_iff_left he]
    · rw [if_neg he, ih, hs, or_iff_right fun h => he h.2]

/-- A lit indicator lights its segment, a blinking one in the lit half alone. -/
theorem shows_iff (s : State) (sd : Side) (i : Nat) :
    s.shows sd i = true ↔ s.lit sd i = true ∧ (s.blinks sd i = true → s.dsp.blinkLit = true) := by
  unfold State.shows
  cases s.blinks sd i <;> simp

/-- The indicator at a place of the map: LOWER's sixteen come before UPPER's. -/
theorem showsAt_iff (s : State) (k : Nat) : s.showsAt k = true ↔
    ∃ sd i, (k < 16 ∧ sd = Side.lower ∧ i = k ∨ 16 ≤ k ∧ sd = .upper ∧ i = k - 16) ∧ s.shows sd i = true := by
  unfold State.showsAt
  split
  case isTrue h =>
    refine ⟨fun hl => ⟨_, _, .inl ⟨h, rfl, rfl⟩, hl⟩, ?_⟩
    rintro ⟨_, _, ⟨_, rfl, rfl⟩ | ⟨hk, _⟩, hl⟩
    · exact hl
    · omega
  case isFalse h =>
    refine ⟨fun hu => ⟨_, _, .inr ⟨by omega, rfl, rfl⟩, hu⟩, ?_⟩
    rintro ⟨_, _, ⟨hk, _⟩ | ⟨_, rfl, rfl⟩, hu⟩
    · omega
    · exact hu

theorem segmentLit_iff (s : State) (g : Nat) : s.segmentLit g = true ↔
    ∃ k sd i, s.dsp.map[k]? = some (some g) ∧ (k < 16 ∧ sd = Side.lower ∧ i = k ∨ 16 ≤ k ∧ sd = .upper ∧ i = k - 16) ∧
      s.lit sd i = true ∧ (s.blinks sd i = true → s.dsp.blinkLit = true) := by
  simp only [State.segmentLit, List.any_eq_true, mem_mapPlaces, Nat.zero_add, exists_eq_left', showsAt_iff, shows_iff, exists_and_left]

/-! ### What a refresh shows (R148, R152, R154) -/

/-- A dot row of a region is the row of its line, sixteen rows to a line (R148). -/
theorem regionRow_eq (s : State) (sd : Side) {i : Nat} (hi : i < 32) : s.regionRow sd i =
    (if i < 16 then (s.region sd).line1 else (s.region sd).line2).map fun c => s.glyphRow (s.region sd).builtin c (i % 16) := by
  unfold State.regionRow
  by_cases h : i < 16
  · rw [if_pos h, if_pos h, Nat.mod_eq_of_lt h]
  · rw [if_neg h, if_neg h, show i % 16 = i - 16 by omega]

/-- The panel that shows nothing, in OFF and SETTLING. -/
theorem poweredPanel_dark {s : State} (h : s.dsp.power = .off ∨ s.dsp.power = .settling) :
    s.poweredPanel.rows = Panel.off.rows ∧ s.poweredPanel.segments = Panel.off.segments := by
  unfold State.poweredPanel
  obtain h | h := h <;> rw [h] <;> exact ⟨rfl, rfl⟩

/-- The panel that shows the regions and the indicators, in ON and DIM. -/
theorem poweredPanel_drawn {s : State} (h : s.dsp.power = .on ∨ s.dsp.power = .dim) :
    s.poweredPanel.rows = (List.range 32).map (fun i => s.regionRow .lower i ++ s.regionRow .upper i) ∧
      s.poweredPanel.segments = (List.range 40).map s.segmentLit := by
  unfold State.poweredPanel
  obtain h | h := h <;> rw [h] <;> exact ⟨rfl, rfl⟩

theorem poweredPanel_driver (s : State) : s.poweredPanel.driver = decide (s.dsp.power ≠ .off) := by
  unfold State.poweredPanel
  cases s.dsp.power <;> rfl

theorem poweredPanel_backlight (s : State) : s.poweredPanel.backlight =
    match s.dsp.power with | .on => .full | .dim => .eighth | .off => .dark | .settling => .full := by
  unfold State.poweredPanel
  cases s.dsp.power <;> rfl

theorem poweredPanel_sized (s : State) : s.poweredPanel.rows.length = 32 ∧ s.poweredPanel.segments.length = 40 := by
  unfold State.poweredPanel
  cases s.dsp.power <;> simp [Panel.off]

theorem shownPanel_lampTest {s : State} (h : s.dsp.lampTest = true) :
    s.shownPanel = ⟨List.replicate 32 (List.replicate 48 0xFF), List.replicate 40 true, .full, true⟩ := if_pos h

theorem shownPanel_blank {s : State} (h : s.dsp.lampTest = false) (hb : s.dsp.blank = true) :
    s.shownPanel = { Panel.off with driver := s.poweredPanel.driver } :=
  (if_neg (by rw [h]; decide)).trans (if_pos hb)

theorem shownPanel_powered {s : State} (h : s.dsp.lampTest = false) (hb : s.dsp.blank = false) : s.shownPanel = s.poweredPanel :=
  (if_neg (by rw [h]; decide)).trans (if_neg (by rw [hb]; decide))

theorem shownPanel_sized (s : State) : s.shownPanel.rows.length = 32 ∧ s.shownPanel.segments.length = 40 := by
  cases hl : s.dsp.lampTest with
  | true => rw [shownPanel_lampTest hl]; simp
  | false =>
    cases hb : s.dsp.blank with
    | true => rw [shownPanel_blank hl hb]; simp [Panel.off]
    | false => rw [shownPanel_powered hl hb]; exact poweredPanel_sized s

/-- Outside the lamp test the driver follows the power state, the blank override or not. -/
theorem shownPanel_driver {s : State} (h : s.dsp.lampTest = false) : s.shownPanel.driver = decide (s.dsp.power ≠ .off) := by
  cases hb : s.dsp.blank with
  | true => rw [shownPanel_blank h hb]; exact poweredPanel_driver s
  | false => rw [shownPanel_powered h hb]; exact poweredPanel_driver s

/-- Blanked, or in OFF or SETTLING, every dot and segment is dark. -/
theorem shownPanel_dark {s : State} (h : s.dsp.lampTest = false)
    (hd : s.dsp.blank = true ∨ s.dsp.power = .off ∨ s.dsp.power = .settling) :
    s.shownPanel.rows = Panel.off.rows ∧ s.shownPanel.segments = Panel.off.segments := by
  cases hb : s.dsp.blank with
  | true => rw [shownPanel_blank h hb]; exact ⟨rfl, rfl⟩
  | false =>
    rw [shownPanel_powered h hb]
    exact poweredPanel_dark (hd.resolve_left (by rw [hb]; decide))

/-- Settles O52: each timer's end as written, then the panel under the overrides and in each power state. -/
theorem panelAndToneTimers : Obligations.PanelAndToneTimers := by
  refine ⟨fun s => ⟨exec_panelOff s, (exec_settlingEnd s).trans (congrArg _ (settlingOut_eq s)), exec_blinkHalf s, fun hl => ?_,
      fun hl hc => ?_, fun t hl hc => ?_⟩,
    fun s => ⟨s.shownPanel, exec_displayRefresh s, (shownPanel_sized s).1, (shownPanel_sized s).2, shownPanel_lampTest,
      shownPanel_dark, fun hl hb => ?_, shownPanel_driver, fun hl hb => ?_, fun hl hb hp => ?_⟩⟩
  · rw [exec_toneNoteEnd, noteEnd_overtaken hl]
  · have hn : s.tgn.current.bind nextNote = s.tgn.current := by rw [hc]; rfl
    rw [exec_toneNoteEnd, noteEnd_counted hl, hn]
  · rw [exec_toneNoteEnd, noteEnd_counted hl, hc]
    rfl
  · rw [shownPanel_blank hl hb]
    rfl
  · rw [shownPanel_powered hl hb]
    exact poweredPanel_backlight s
  · obtain ⟨hr, hg⟩ := poweredPanel_drawn hp
    rw [shownPanel_powered hl hb, hr, hg]
    refine ⟨fun i hi => ?_, fun g hgl => ?_⟩
    · rw [List.getD_eq_getElem?_getD, List.getElem?_map, List.getElem?_range hi]
      exact congrArg₂ _ (regionRow_eq s .lower hi) (regionRow_eq s .upper hi)
    · rw [List.getD_eq_getElem?_getD, List.getElem?_map, List.getElem?_range hgl]
      exact segmentLit_iff s g

end Sys2Proof.Machine
end

section
/-! Tone requests, the audio and mute outputs, and what lights an indicator (O53). -/

namespace Sys2Proof.Machine

open Sys2Proof.Claims

/-! ### Tone requests (R139, R140) -/

theorem startTone_eq (l : List Note) (o : Origin) (sd : Side) (level : Nat) : startTone l o sd level =
    match l with
    | [] => none
    | m :: rest => some ⟨m :: rest, o, sd, level, m.steps⟩ := by
  cases l <;> rfl

/-- A tone that is not a prompt's is dropped under the prompt tone of a SAFETY or FAULT prompt (R140). -/
theorem toneDropped_key {o : Origin} (h : o = .click ∨ o = .reject) (c : Option Tone) :
    toneDropped c o = true ↔ ∃ t ∈ c, t.origin = .prompt .safety ∨ t.origin = .prompt .fault := by
  unfold toneDropped
  obtain rfl | rfl := h <;> cases c <;> simp

theorem requestTone_key {o : Origin} (h : o = .click ∨ o = .reject) (s : State) (n : Nat) (sd : Side) :
    s.requestTone n sd o = keyToned s n sd o := by
  unfold State.requestTone keyToned
  rw [startTone_eq, ← toneReplaced_eq]
  exact if_congr (toneDropped_key h _) rfl rfl

theorem requestTone_prompt (s : State) (n : Nat) (sd : Side) (c : PClass) : s.requestTone n sd (.prompt c) =
    { s with tgn := toneReplaced s.tgn (startTone (s.pattern n) (.prompt c) sd (s.sideLevel sd)) } := rfl

/-! ### Attenuation and limit (R136, R137) -/

/-- Below the mute an attenuation keeps the sign and scales the magnitude. -/
theorem attenuatedOr_steps {n : Nat} (h : n ≤ 30) (x : Int) : attenuatedOr (some n) x = x.sign * attenuatedMagnitude n x :=
  if_neg (by unfold Config.muteSteps; omega)

theorem attenuatedOr_mute {n : Nat} (h : 31 ≤ n) (x : Int) : attenuatedOr (some n) x = 0 := if_pos h

/-- `n` steps leave a sample of its multiple by their factor `c`, where that is a whole number. -/
theorem attenuatedOr_exact {n c : Nat} (hn : n ≤ 30) (hc : c ^ 10 = 10 ^ n) (x : Int) : attenuatedOr (some n) (c * x) = x := by
  have hne : c ≠ 0 := ne_zero_pow (n := 10) (by decide) (by rw [hc]; exact (Nat.pow_pos (by decide)).ne')
  have hm : attenuatedMagnitude n (c * x) = x.natAbs := attenuatedMagnitude_exact (by
    rw [Int.natAbs_mul, Int.natAbs_natCast, Nat.mul_pow, hc, Nat.mul_comm])
  rw [attenuatedOr_steps hn, hm, Int.sign_mul, Int.sign_natCast_of_ne_zero hne, one_mul, Int.sign_mul_natAbs]

theorem attenuatedOr_zero (n : Nat) : attenuatedOr (some n) 0 = 0 := by
  obtain h | h := Nat.lt_or_ge 30 n
  · exact attenuatedOr_mute h 0
  · rw [attenuatedOr_steps h, Int.sign_zero, zero_mul]

/-- An attenuation does not amplify. -/
theorem attenuatedOr_le (n : Nat) (x : Int) : (attenuatedOr (some n) x).natAbs ≤ x.natAbs := by
  obtain h | h := Nat.lt_or_ge 30 n
  · rw [attenuatedOr_mute h]
    exact Nat.zero_le _
  · rw [attenuatedOr_steps h, Int.natAbs_mul, Int.natAbs_natCast]
    calc x.sign.natAbs * attenuatedMagnitude n x ≤ 1 * attenuatedMagnitude n x :=
          Nat.mul_le_mul_right _ (by rw [Int.natAbs_sign]; split <;> decide)
      _ = attenuatedMagnitude n x := one_mul _
      _ ≤ x.natAbs := attenuatedMagnitude_le n x

/-- The magnitude left is a whole number next to `10 ^ (-n / 10)` of the sample's. -/
theorem attenuatedOr_rounds {n : Nat} (h : n ≤ 30) (x : Int) : ∃ k : Nat, k ^ 10 * 10 ^ n ≤ x.natAbs ^ 10 ∧
    x.natAbs ^ 10 < (k + 1) ^ 10 * 10 ^ n ∧ (attenuatedOr (some n) x = x.sign * k ∨
      k ^ 10 * 10 ^ n ≠ x.natAbs ^ 10 ∧ attenuatedOr (some n) x = x.sign * (k + 1)) := by
  obtain ⟨hlo, hhi⟩ := attenuatedDown_spec n x.natAbs
  refine ⟨attenuatedDown n x.natAbs, hlo, hhi, ?_⟩
  rw [attenuatedOr_steps h]
  obtain hd | ⟨hne, hu⟩ := attenuatedMagnitude_cases n x
  · exact .inl (by rw [hd])
  · exact .inr ⟨hne, by rw [hu, Nat.cast_succ]⟩

/-- The limit is the nearest value of a range about silence. -/
theorem limitedOutput_range : ∃ low high : Nat, ∀ x : Int, (x < -low → limitedOutput x = -low) ∧
    (-low ≤ x → x ≤ high → limitedOutput x = x) ∧ (high < x → limitedOutput x = high) :=
  ⟨Config.outputBelow, Config.outputAbove, fun x => by unfold limitedOutput; omega⟩

/-! ### The audio and mute outputs (R128, R137 to R139) -/

/-- A block of speech plays at its element's attenuation, six steps lower under a tone. -/
theorem speechAttenuation_block {s : State} {e : ElementInPlay} {k : Nat} (hc : s.spe.channel = .speaking)
    (he : s.spe.element = some e) (ha : e.at_ = .block k) :
    s.speechAttenuation = some (if s.tgn.current = none then min 31 e.level else min 31 (e.level + 6)) := by
  unfold State.speechAttenuation
  rw [hc, he]
  simp only [ha]
  cases s.tgn.current <;> rfl

theorem speechSample_element {s : State} {e : ElementInPlay} (he : s.spe.element = some e) (i : Nat) :
    s.speechSample i = e.samples.getD i 0 := by
  unfold State.speechSample
  rw [he]

/-- Speech has an attenuation in a block alone. -/
theorem speechAttenuation_none {s : State}
    (h : ∀ e k, s.spe.channel = .speaking → s.spe.element = some e → e.at_ ≠ .block k) : s.speechAttenuation = none := by
  unfold State.speechAttenuation
  split
  case h_1 e hc he =>
    split
    case h_1 k ha => exact absurd ha (h e k hc he)
    all_goals rfl
  case h_2 => rfl

theorem toneSampleAt_rest {s : State} (h : s.toneCode = 0) (n : Nat) : s.toneSampleAt n = 0 := by
  unfold State.toneSampleAt
  rw [h]
  rfl

theorem toneAttenuation_none {s : State} (h : s.tgn.current = none) : s.toneAttenuation = none := by
  unfold State.toneAttenuation
  rw [h]
  rfl

theorem toneAttenuation_some {s : State} {t : Tone} (h : s.tgn.current = some t) : s.toneAttenuation = some t.level := by
  unfold State.toneAttenuation
  rw [h]
  rfl

theorem toneCode_none {s : State} (h : s.tgn.current = none) : s.toneCode = 0 := by
  unfold State.toneCode
  rw [h]

theorem toneCode_some {s : State} {t : Tone} {m : Note} {rest : List Note} (h : s.tgn.current = some t) (hn : t.notes = m :: rest) :
    s.toneCode = m.code := by
  unfold State.toneCode
  rw [h]
  simp only [hn]
  rfl

/-- The mute output is driven while neither speech nor a tone plays, and while both do at the mute. -/
theorem muteDriven_iff (s : State) : s.muteDriven = true ↔ s.speechAttenuation = none ∧ s.toneAttenuation = none ∨
    s.speechAttenuation = some 31 ∧ s.toneAttenuation = some 31 := by
  unfold State.muteDriven
  rcases s.speechAttenuation with _ | a <;> rcases s.toneAttenuation with _ | b
  case some.some =>
    have h : (a = Config.muteSteps ∧ b = Config.muteSteps) ↔ some a = some 31 ∧ some b = some 31 :=
      and_congr (Option.some_inj (b := 31)).symm (Option.some_inj (b := 31)).symm
    simpa only [reduceCtorEq, and_self, false_or, decide_eq_true_eq] using h
  all_goals simp

/-! ### Indicators (R149, R151) -/

/-- A phase's indicator stands one place below its code; IDLE has none. -/
theorem phaseIndicator_eq_some (ph : Phase) (i : Nat) : phaseIndicator ph = some i ↔ i < 8 ∧ (phaseCode ph).toNat = i + 1 := by
  cases ph <;> simp [phaseIndicator, phaseCode] <;> omega

theorem liveSafetyFault_pos (s : State) (sd : Side) :
    0 < s.liveSafetyFault sd ↔ ∃ x ∈ s.ptb.prompts, x.side = sd ∧ (x.cls = .safety ∨ x.cls = .fault) := by
  unfold State.liveSafetyFault
  simp only [List.length_filter_pos_iff, decide_eq_true_eq]

theorem unackSafety_pos (s : State) (sd : Side) : 0 < s.unackSafety sd ↔
    ∃ x ∈ s.ptb.prompts, x.side = sd ∧ x.cls = .safety ∧ x.state ≠ .granted .acknowledged ∧ x.state ≠ .held .acknowledged := by
  unfold State.unackSafety acknowledged
  simp only [List.length_filter_pos_iff, Bool.and_eq_true, Bool.not_eq_true', decide_eq_true_eq, decide_eq_false_iff_not, not_or,
    and_assoc, ne_eq]

theorem lit_iff (s : State) (sd : Side) (i : Nat) : s.lit sd i = true ↔ (s.region sd).icons.getLsbD i = true ∨
    (i < 8 ∧ (phaseCode (s.records sd).cycle.phase).toNat = i + 1) ∨ (i = 13 ∧ (s.records sd).session.mode ≠ .off) ∨
    (i = 14 ∧ (s.records sd).session.mode = .assist) ∨
    (i = 15 ∧ ((∃ x ∈ s.ptb.prompts, x.side = sd ∧ (x.cls = .safety ∨ x.cls = .fault)) ∨
      (s.records sd).cycle.phase = .fault ∨ (s.region sd).content = .fallback)) := by
  simp only [State.lit, Bool.or_eq_true, Bool.and_eq_true, decide_eq_true_eq, phaseIndicator_eq_some, liveSafetyFault_pos, or_assoc]

theorem blinks_iff (s : State) (sd : Side) (i : Nat) : s.blinks sd i = true ↔ s.lit sd i = true ∧
    ((s.region sd).blink.getLsbD i = true ∨ (i = 15 ∧ ∃ x ∈ s.ptb.prompts, x.side = sd ∧ x.cls = .safety ∧
      x.state ≠ .granted .acknowledged ∧ x.state ≠ .held .acknowledged)) := by
  simp only [State.blinks, Bool.or_eq_true, Bool.and_eq_true, decide_eq_true_eq, unackSafety_pos]

/-- Settles O53: tone requests, the attenuations and the limit, the outputs that they make, then the indicators. -/
theorem tonesAndIndicators : Obligations.TonesAndIndicators := by
  refine ⟨fun s n sd o => ⟨fun h => requestTone_key h s n sd, fun c hc => ?_⟩,
    fun x n => ⟨rfl, ?_, fun h => attenuatedOr_mute h x, attenuatedOr_zero n, limitedOutput_zero,
      attenuatedOr_exact (c := 10) (by decide) (by decide) x, attenuatedOr_exact (c := 100) (by decide) (by decide) x,
      attenuatedOr_exact (c := 1000) (by decide) (by decide) x, attenuatedOr_le n x, fun h => attenuatedOr_rounds h x⟩,
    limitedOutput_range,
    fun s => ⟨fun _ _ => rfl, fun e k hc he ha => ⟨speechAttenuation_block hc he ha, speechSample_element he⟩, speechAttenuation_none,
      fun h => ⟨toneAttenuation_none h, toneSampleAt_rest (toneCode_none h)⟩,
      fun t h => ⟨toneAttenuation_some h, fun m rest hn h0 => toneSampleAt_rest ((toneCode_some h hn).trans h0)⟩, muteDriven_iff s⟩,
    rfl, fun s sd i _ => ⟨lit_iff s sd i, blinks_iff s sd i⟩⟩
  · subst hc
    exact (requestTone_prompt s n sd c).trans
      (congrArg (fun t => ({ s with tgn := toneReplaced s.tgn t } : State)) (startTone_eq ..))
  · have h := attenuatedOr_exact (n := 0) (c := 1) (by decide) (by decide) x
    rwa [Nat.cast_one, one_mul] at h

end Sys2Proof.Machine
end

section
/-! What blocks and steps may do to roles, responses, notices, the owners of prompts and holds, and that this keeps the ports' records as
R156, R160, R165, R167 and R169 say (O57, O58). -/

namespace Sys2Proof.Machine

open Sys2Proof.Claims

/-! ### Changes by which no port gains a role, a prompt or a hold -/

/-- A port holds no notice, no prompt and no side. -/
def holdsNothing (s : State) (p : Port) : Prop :=
  noticesOf s p = [] ∧ (∀ x ∈ s.ptb.prompts, x.owner ≠ p) ∧ ∀ sd, (s.records sd).hold.holder ≠ some p

/-- Roles, responses and queues stay, and no port gains a prompt or a hold. -/
structure PortsKept (s t : State) : Prop where
  role : ∀ p, (t.link p).role = (s.link p).role
  inWork : ∀ p, (t.link p).inWork = (s.link p).inWork
  transmit : ∀ p, (t.link p).transmit = (s.link p).transmit
  queues : t.nq = s.nq
  prompts : ∀ x ∈ t.ptb.prompts, ∃ y ∈ s.ptb.prompts, y.owner = x.owner
  holds : ∀ sd p, (t.records sd).hold.holder = some p → (s.records sd).hold.holder = some p

/-- Changes by which a port gains nothing but notices. -/
inductive Yields : State → State → Prop
  | kept {s t : State} (h : PortsKept s t) : Yields s t
  | presents {s t : State} (h : Presents s t) : Yields s t
  | trans {s t u : State} (h : Yields s t) (k : Yields t u) : Yields s u
  | masked (s : State) (p : Port) (m : BitVec 12) : Yields s (s.onQueue p fun q => q.setMask m)
  | fetched {s : State} (p : Port) {l : List Notice} (h : l <:+ noticesOf s p) : Yields s (s.onQueue p fun q => q.setNotices l)

/-- All that the blocks do when a request is carried out or a timer ends: no response is touched (R160 to R162). -/
inductive BlockMoves : State → State → Prop
  | yields {s t : State} (h : Yields s t) : BlockMoves s t
  | trans {s t u : State} (h : BlockMoves s t) (k : BlockMoves t u) : BlockMoves s u
  | posts {s : State} (x : Prompt) (slot : Nat) (h : (s.link x.owner).role ≠ none) : BlockMoves s (s.place x slot)
  | holds {s : State} (sd : Side) (p : Port) (h : (s.link p).role ≠ none) : BlockMoves s (s.putHolder sd p)
  | binds {s : State} (p : Port) (r : Role) (h : s.portOf r = none) : BlockMoves s (s.onLink p fun l => { l with role := some r })
  | unbinds {s : State} (p : Port) (h : holdsNothing s p) : BlockMoves s (s.onLink p fun l => { l with role := none })

/-- What can become of a port's responses (R160, R161). -/
inductive LinkGoes (l : PortLink) : PortLink → Prop
  | responds (code seq : Byte) (st : Status) (body : List Byte) : LinkGoes l (l.respond code seq st body)
  | refuses (f : Frame) (h : f.kept = false) : LinkGoes l (l.refusal f)
  | sends : LinkGoes l l.sent
  | waits (code seq : Byte) (w : Work) (h : ∀ f, w ≠ .response f) : LinkGoes l { l with inWork := some ⟨code, seq, w⟩ }

/-- All that commands and the time base do to the ports' records. -/
inductive PortMoves : State → State → Prop
  | block {s t : State} (h : BlockMoves s t) : PortMoves s t
  | trans {s t u : State} (h : PortMoves s t) (k : PortMoves t u) : PortMoves s u
  | link {s : State} (p : Port) (f : PortLink → PortLink) (h : LinkGoes (s.link p) (f (s.link p))) : PortMoves s (s.onLink p f)
  | reset {s t : State} (hl : ∀ p, t.link p = .reset) (hq : ∀ p, t.nq.get p = .reset) (hp : t.ptb.prompts = [])
      (hh : ∀ sd, (t.records sd).hold.holder = none) : PortMoves s t

/-! ### How the changes arise -/

/-- A change elsewhere in the state. -/
theorem Yields.other {s t : State} (hl : t.lnk = s.lnk := by rfl) (hq : t.nq = s.nq := by rfl)
    (hp : t.ptb.prompts = s.ptb.prompts := by rfl) (hs : t.scu = s.scu := by rfl) : Yields s t := by
  have hlk : ∀ p, t.link p = s.link p := fun p => by unfold State.link; rw [hl]
  exact .kept ⟨fun p => by rw [hlk], fun p => by rw [hlk], fun p => by rw [hlk], hq, fun x hx => ⟨x, hp ▸ hx, rfl⟩,
    fun sd p h => by unfold State.records at *; rwa [hs] at h⟩

theorem Yields.refl (s : State) : Yields s s := .other

/-- What is done after a change elsewhere in the state. -/
theorem Yields.after {s t u : State} (k : Yields t u) (hl : t.lnk = s.lnk := by rfl) (hq : t.nq = s.nq := by rfl)
    (hp : t.ptb.prompts = s.ptb.prompts := by rfl) (hs : t.scu = s.scu := by rfl) : Yields s u := (Yields.other hl hq hp hs).trans k

theorem BlockMoves.refl (s : State) : BlockMoves s s := .yields (.refl s)

theorem PortMoves.refl (s : State) : PortMoves s s := .block (.refl s)

theorem PortMoves.yields {s t : State} (h : Yields s t) : PortMoves s t := .block (.yields h)

/-- What a change of a link keeps, it keeps at every port. -/
theorem State.kept_link_onLink {α : Type} {g : PortLink → α} {f : PortLink → PortLink} (hg : ∀ l, g (f l) = g l) (s : State)
    (p q : Port) : g ((s.onLink p f).link q) = g (s.link q) := by
  rw [State.link_onLink_eq]
  split
  · exact hg _
  · rfl

/-- A link whose responses and role stay. -/
theorem Yields.onLink (s : State) (p : Port) {f : PortLink → PortLink} (hr : ∀ l, (f l).role = l.role)
    (hw : ∀ l, (f l).inWork = l.inWork) (ht : ∀ l, (f l).transmit = l.transmit) : Yields s (s.onLink p f) :=
  .kept ⟨s.kept_link_onLink hr p, s.kept_link_onLink hw p, s.kept_link_onLink ht p, rfl, fun x hx => ⟨x, hx, rfl⟩, fun _ _ h => h⟩

theorem Yields.receiver (s : State) (p : Port) (r : Receive) : Yields s (s.receiver p r) :=
  .onLink s p (fun _ => rfl) (fun _ => rfl) fun _ => rfl

theorem Yields.onSession (s : State) (sd : Side) (f : Session → Session) : Yields s (s.onSession sd f) :=
  .kept ⟨fun _ => rfl, fun _ => rfl, fun _ => rfl, rfl, fun x hx => ⟨x, hx, rfl⟩, fun sd' p h => by
    rw [records_onSession_eq] at h
    split at h <;> exact h⟩

theorem Yields.onCycle (s : State) (sd : Side) (f : Cycle → Cycle) : Yields s (s.onCycle sd f) :=
  .kept ⟨fun _ => rfl, fun _ => rfl, fun _ => rfl, rfl, fun x hx => ⟨x, hx, rfl⟩, fun sd' p h => by
    rw [records_onCycle_eq] at h
    split at h <;> exact h⟩

/-- A hold that ends (R65 to R67). -/
theorem Yields.holdEnds (s : State) (sd : Side) : Yields s (s.onHold sd fun _ => ⟨none, none⟩) :=
  .kept ⟨fun _ => rfl, fun _ => rfl, fun _ => rfl, rfl, fun x hx => ⟨x, hx, rfl⟩, fun sd' p h => by
    rw [records_onHold_eq] at h
    split at h
    · cases h
    · exact h⟩

/-- Prompts that leave the table (R24, R25). -/
theorem Yields.filterPrompts (s : State) (f : Prompt → Bool) : Yields s (s.setPrompts (s.ptb.prompts.filter f)) :=
  .kept ⟨fun _ => rfl, fun _ => rfl, fun _ => rfl, rfl, fun x hx => ⟨x, List.mem_of_mem_filter hx, rfl⟩, fun _ _ h => h⟩

theorem Yields.tick (s : State) : Yields s s.tick := by
  have hl : ∀ p, s.tick.link p = (s.link p).tick := fun p => PerPort.get_mapAll s.lnk _ p
  refine .kept ⟨fun p => by rw [hl]; rfl, fun p => by rw [hl]; rfl, fun p => by rw [hl]; rfl, rfl, fun x hx => ?_, fun sd p h => ?_⟩
  · obtain ⟨y, hy, rfl⟩ := List.mem_map.1 hx
    exact ⟨y, hy, rfl⟩
  · rwa [records_tick] at h

theorem Yields.foldl {α : Type} {f : State → α → State} (h : ∀ s a, Yields s (f s a)) :
    ∀ (l : List α) (s : State), Yields s (l.foldl f s)
  | [], s => .refl s
  | a :: l, s => (h s a).trans (Yields.foldl h l (f s a))

/-! ### What the changes leave -/

theorem owner_of_posted {x y : Prompt} (h : y.posted = x.posted) : y.owner = x.owner :=
  congrArg Prompt.owner (a₁ := y.posted) (a₂ := x.posted) h

theorem Yields.link {s t : State} (h : Yields s t) (p : Port) : (t.link p).role = (s.link p).role ∧
    (t.link p).inWork = (s.link p).inWork ∧ (t.link p).transmit = (s.link p).transmit := by
  induction h with
  | kept h => exact ⟨h.role p, h.inWork p, h.transmit p⟩
  | presents h => rw [State.link, h.lnk]; exact ⟨rfl, rfl, rfl⟩
  | trans _ _ ih ik =>
    obtain ⟨hr, hw, ht⟩ := ih
    obtain ⟨kr, kw, kt⟩ := ik
    exact ⟨kr.trans hr, kw.trans hw, kt.trans ht⟩
  | masked | fetched => exact ⟨rfl, rfl, rfl⟩

/-- A port without prompts gains none. -/
theorem Yields.prompts {s t : State} (h : Yields s t) : ∀ x ∈ t.ptb.prompts, ∃ y ∈ s.ptb.prompts, y.owner = x.owner := by
  induction h with
  | kept h => exact h.prompts
  | presents h =>
    intro x hx
    obtain ⟨y, hy, e⟩ := mem_of_posted h.prompts hx
    exact ⟨y, hy, owner_of_posted e⟩
  | trans _ _ ih ik =>
    intro x hx
    obtain ⟨y, hy, e⟩ := ik x hx
    obtain ⟨z, hz, e'⟩ := ih y hy
    exact ⟨z, hz, e'.trans e⟩
  | masked | fetched => exact fun x hx => ⟨x, hx, rfl⟩

/-- A port without a hold gains none. -/
theorem Yields.holder {s t : State} (h : Yields s t) (sd : Side) (p : Port) :
    (t.records sd).hold.holder = some p → (s.records sd).hold.holder = some p := by
  induction h with
  | kept h => exact h.holds sd p
  | presents h => rw [State.records, h.scu]; exact id
  | trans _ _ ih ik => exact fun h => ih (ik h)
  | masked | fetched => exact id

/-- A property of queues that offers, masks and fetches keep is kept by all these changes. -/
theorem Yields.queue {P : NoticeQueue → Prop} (ho : ∀ q n, P q → P (q.setNotices (pushNotice q.notices n)))
    (hm : ∀ q m, P q → P (q.setMask m)) (hf : ∀ q l, l <:+ q.notices → P q → P (q.setNotices l)) {s t : State} (h : Yields s t)
    (hs : ∀ p, P (s.nq.get p)) : ∀ p, P (t.nq.get p) := by
  have hn : ∀ (ns : List Notice) q, P q → P (q.offered ns) := fun ns => by
    induction ns with
    | nil => exact fun _ h => h
    | cons n ns ih => exact fun q h => ih _ (ho q n h)
  induction h with
  | kept h => rw [h.queues]; exact hs
  | presents h =>
    intro p
    obtain ⟨ns, e, -⟩ := h.queues p
    rw [e]
    exact hn ns _ (hs p)
  | trans _ _ ih ik => exact ik (ih hs)
  | masked s p m =>
    intro p'
    rw [State.onQueue_nq, PerPort.get_update]
    split
    · exact hm _ m (hs p')
    · exact hs p'
  | @fetched s p l h =>
    intro p'
    rw [State.onQueue_nq, PerPort.get_update]
    split
    · rename_i e
      subst e
      exact hf _ l h (hs p')
    · exact hs p'

/-- An empty queue of a port without a role stays empty (R167). -/
theorem Yields.unheard {s t : State} (h : Yields s t) {p : Port} (hr : (s.link p).role = none) (hn : noticesOf s p = []) :
    noticesOf t p = [] := by
  induction h with
  | kept h => rw [noticesOf, h.queues]; exact hn
  | presents h =>
    obtain ⟨ns, e, hu⟩ := h.queues p
    rw [noticesOf, e, hu hr]
    exact hn
  | trans h _ ih ik => exact ik ((h.link p).1.trans hr) (ih hr hn)
  | masked s p' m =>
    rw [noticesOf, State.onQueue_nq, PerPort.get_update]
    split <;> exact hn
  | @fetched s p' l h =>
    rw [noticesOf, State.onQueue_nq, PerPort.get_update]
    split
    · rename_i e
      subst e
      rw [hn] at h
      exact List.suffix_nil.1 h
    · exact hn

theorem Yields.holdsNothing {s t : State} (h : Yields s t) {p : Port} (hr : (s.link p).role = none)
    (hs : Machine.holdsNothing s p) : Machine.holdsNothing t p := by
  obtain ⟨hn, hp, hh⟩ := hs
  refine ⟨h.unheard hr hn, fun x hx => ?_, fun sd e => hh sd (h.holder sd p e)⟩
  obtain ⟨y, hy, e⟩ := h.prompts x hx
  rw [← e]
  exact hp y hy

/-- The blocks touch no response and no request in work. -/
theorem BlockMoves.responses {s t : State} (h : BlockMoves s t) (p : Port) :
    (t.link p).inWork = (s.link p).inWork ∧ (t.link p).transmit = (s.link p).transmit := by
  have hl : ∀ (s : State) (q : Port) (r : Option Role), ((s.onLink q fun l => { l with role := r }).link p).inWork = (s.link p).inWork ∧
      ((s.onLink q fun l => { l with role := r }).link p).transmit = (s.link p).transmit := fun s q r => by
    rw [State.link_onLink_eq]
    split <;> exact ⟨rfl, rfl⟩
  induction h with
  | yields h => exact (h.link p).2
  | trans _ _ ih ik =>
    obtain ⟨hw, ht⟩ := ih
    obtain ⟨kw, kt⟩ := ik
    exact ⟨kw.trans hw, kt.trans ht⟩
  | posts | holds => exact ⟨rfl, rfl⟩
  | binds q r => exact hl _ q _
  | unbinds q => exact hl _ q _

/-! ### Notice queues (R167, R169) -/

/-- A queue within its places, the sixteenth only for OVERRUN (R167). -/
def queueFits (q : NoticeQueue) : Prop :=
  q.notices.length ≤ 16 ∧ (q.notices.length = 16 → q.notices.getLast?.map (·.kind) = some .overrun)

/-- What an offered notice makes of a queue (R167). -/
theorem pushNotice_cases (l : List Notice) (n : Notice) : pushNotice l n = l ++ [n] ∧ l.length ≤ 14 ∨
    pushNotice l n = l ++ [overrunNotice] ∧ l.length = 15 ∨ pushNotice l n = l := by
  unfold pushNotice
  split
  · rename_i h
    exact .inl ⟨rfl, Nat.le_of_lt_succ h⟩
  · split
    · rename_i h
      exact .inr (.inl ⟨rfl, h.1⟩)
    · exact .inr (.inr rfl)

theorem queueFits_push (q : NoticeQueue) (n : Notice) (h : queueFits q) : queueFits (q.setNotices (pushNotice q.notices n)) := by
  show (pushNotice q.notices n).length ≤ 16 ∧ ((pushNotice q.notices n).length = 16 → (pushNotice q.notices n).getLast?.map _ = _)
  obtain ⟨e, hl⟩ | ⟨e, hl⟩ | e := pushNotice_cases q.notices n <;> rw [e]
  · simp only [List.length_append, List.length_singleton]
    omega
  · simp only [List.length_append, List.length_singleton, hl, List.getLast?_append, List.getLast?_singleton]
    exact ⟨by decide, fun _ => rfl⟩
  · exact h

theorem queueFits_suffix (q : NoticeQueue) (l : List Notice) (hl : l <:+ q.notices) (h : queueFits q) : queueFits (q.setNotices l) := by
  have hle := hl.length_le
  refine ⟨hle.trans h.1, fun (e : l.length = 16) => ?_⟩
  have hq : l = q.notices := hl.eq_of_length_le (e ▸ h.1)
  show l.getLast?.map _ = _
  rw [hq]
  exact h.2 (hq ▸ e)

theorem Yields.attnFollows {s t : State} (h : Yields s t) (hs : attnFollows s) : attnFollows t :=
  h.queue (P := fun q => q.attn = attnLevel q.notices q.mask) (fun _ _ _ => rfl) (fun _ _ _ => rfl) (fun _ _ _ _ => rfl) hs

theorem Yields.queuesBounded {s t : State} (h : Yields s t) (hs : queuesBounded s) : queuesBounded t :=
  h.queue (P := queueFits) queueFits_push (fun _ _ h => h) queueFits_suffix hs

theorem BlockMoves.attnFollows {s t : State} (h : BlockMoves s t) (hs : attnFollows s) : attnFollows t := by
  induction h with
  | yields h => exact h.attnFollows hs
  | trans _ _ ih ik => exact ik (ih hs)
  | posts | holds | binds | unbinds => exact hs

theorem BlockMoves.queuesBounded {s t : State} (h : BlockMoves s t) (hs : queuesBounded s) : queuesBounded t := by
  induction h with
  | yields h => exact h.queuesBounded hs
  | trans _ _ ih ik => exact ik (ih hs)
  | posts | holds | binds | unbinds => exact hs

theorem PortMoves.attnFollows {s t : State} (h : PortMoves s t) (hs : attnFollows s) : attnFollows t := by
  induction h with
  | block h => exact h.attnFollows hs
  | trans _ _ ih ik => exact ik (ih hs)
  | link => exact hs
  | reset _ hq => exact fun p => by rw [hq]; rfl

theorem PortMoves.queuesBounded {s t : State} (h : PortMoves s t) (hs : queuesBounded s) : queuesBounded t := by
  induction h with
  | block h => exact h.queuesBounded hs
  | trans _ _ ih ik => exact ik (ih hs)
  | link => exact hs
  | reset _ hq => exact fun p => by rw [noticesOf, hq]; exact ⟨by decide, by decide⟩

/-! ### Roles (R156) -/

theorem portOf_eq_none {s : State} {r : Role} (h : s.portOf r = none) (p : Port) : (s.link p).role ≠ some r := by
  have hp : p ∈ allPorts := by cases p <;> decide
  simpa using List.find?_eq_none.1 h p hp

theorem rolesBoundOnce_of_role {s t : State} (h : ∀ p, (t.link p).role = (s.link p).role) (hs : rolesBoundOnce s) : rolesBoundOnce t :=
  fun p p' r hp hp' => hs p p' r ((h p).symm.trans hp) ((h p').symm.trans hp')

theorem BlockMoves.rolesBoundOnce {s t : State} (h : BlockMoves s t) (hs : rolesBoundOnce s) : rolesBoundOnce t := by
  induction h with
  | yields h => exact rolesBoundOnce_of_role (fun p => (h.link p).1) hs
  | trans _ _ ih ik => exact ik (ih hs)
  | posts | holds => exact hs
  | @binds s q r hn =>
    intro p p' r' hp hp'
    rw [State.link_onLink_eq] at hp hp'
    split at hp <;> split at hp'
    · rename_i e e'
      exact e.trans e'.symm
    · cases hp
      exact absurd hp' (portOf_eq_none hn p')
    · cases hp'
      exact absurd hp (portOf_eq_none hn p)
    · exact hs p p' r' hp hp'
  | @unbinds s q _ =>
    intro p p' r' hp hp'
    rw [State.link_onLink_eq] at hp hp'
    split at hp <;> split at hp'
    · cases hp
    · cases hp
    · cases hp'
    · exact hs p p' r' hp hp'

theorem LinkGoes.role {l l' : PortLink} (h : LinkGoes l l') : l'.role = l.role := by
  cases h with
  | responds => unfold PortLink.respond; dsimp only; split <;> rfl
  | refuses => unfold PortLink.refusal; split <;> rfl
  | sends =>
    unfold PortLink.sent
    dsimp only
    split
    · split <;> rfl
    · rfl
  | waits => rfl

theorem role_link {s : State} {p : Port} {f : PortLink → PortLink} (h : LinkGoes (s.link p) (f (s.link p))) (q : Port) :
    ((s.onLink p f).link q).role = (s.link q).role := by
  rw [State.link_onLink_eq]
  split
  · rename_i e
    subst e
    exact h.role
  · rfl

theorem PortMoves.rolesBoundOnce {s t : State} (h : PortMoves s t) (hs : rolesBoundOnce s) : rolesBoundOnce t := by
  induction h with
  | block h => exact h.rolesBoundOnce hs
  | trans _ _ ih ik => exact ik (ih hs)
  | link p f h => exact rolesBoundOnce_of_role (role_link h) hs
  | reset hl => exact fun p p' r h => by rw [hl] at h; cases h

/-! ### Transmit places (R160) -/

/-- A link's responses within their places, a waiting response one of a request in work (R160). -/
def placesOk (l : PortLink) : Prop :=
  ((l.transmit.filter (·.kept)).length ≤ 1 ∧ (l.transmit.filter fun f => !f.kept).length ≤ 3) ∧
    ∀ c q f, l.inWork = some ⟨c, q, .response f⟩ → f.kept = true

theorem placesBounded_iff (s : State) : placesBounded s ↔ ∀ p, placesOk (s.link p) :=
  ⟨fun ⟨h, k⟩ p => ⟨h p, k p⟩, fun h => ⟨fun p => (h p).1, fun p => (h p).2⟩⟩

theorem filter_kept_of_free {l : List Frame} (h : (l.any (·.kept)) = false) : l.filter (·.kept) = [] := by
  rw [List.filter_eq_nil_iff]
  exact List.any_eq_false.1 h

/-- A response placed in the free kept place. -/
theorem placesOk_append_kept {l : List Frame} {f : Frame} (hf : f.kept = true) (h : (l.any (·.kept)) = false)
    (hl : (l.filter fun f => !f.kept).length ≤ 3) :
    ((l ++ [f]).filter (·.kept)).length ≤ 1 ∧ ((l ++ [f]).filter fun f => !f.kept).length ≤ 3 := by
  simp [List.filter_append, filter_kept_of_free h, hf, hl]

theorem LinkGoes.placesOk {l l' : PortLink} (h : LinkGoes l l') (hl : placesOk l) : placesOk l' := by
  obtain ⟨⟨hk, hr⟩, hw⟩ := hl
  cases h with
  | responds code seq st body =>
    cases ht : l.keptTaken with
    | true =>
      rw [PortLink.respond_taken ht]
      refine ⟨⟨hk, hr⟩, fun c q f h => ?_⟩
      cases h
      rfl
    | false =>
      rw [PortLink.respond_free ht]
      exact ⟨placesOk_append_kept rfl ht hr, nofun⟩
  | refuses f hf =>
    unfold PortLink.refusal
    split
    · rename_i hlt
      have hlt : (l.transmit.filter fun f => !f.kept).length < 3 := hlt
      refine ⟨⟨?_, ?_⟩, hw⟩
      · simpa [List.filter_append, hf] using hk
      · simp [List.filter_append, hf]
        omega
    · exact ⟨⟨hk, hr⟩, hw⟩
  | sends =>
    have hs : l.transmit.tail.Sublist l.transmit := List.tail_sublist _
    have hk' := ((hs.filter _).length_le).trans hk
    have hr' := ((hs.filter _).length_le).trans hr
    unfold PortLink.sent
    dsimp only
    split
    · rename_i c q f e
      split
      · exact ⟨⟨hk', hr'⟩, hw⟩
      · rename_i hn
        exact ⟨placesOk_append_kept (hw c q f e) (Bool.eq_false_iff.2 hn) hr', nofun⟩
    · exact ⟨⟨hk', hr'⟩, hw⟩
  | waits code seq w hn =>
    refine ⟨⟨hk, hr⟩, fun c q f h => ?_⟩
    cases h
    exact absurd rfl (hn f)

theorem PortMoves.placesBounded {s t : State} (h : PortMoves s t) (hs : placesBounded s) : placesBounded t := by
  rw [placesBounded_iff] at *
  induction h with
  | block h =>
    intro p
    obtain ⟨hw, ht⟩ := h.responses p
    unfold placesOk
    rw [hw, ht]
    exact hs p
  | trans _ _ ih ik => exact ik (ih hs)
  | link p f h =>
    intro q
    rw [State.link_onLink_eq]
    split
    · rename_i e
      subst e
      exact h.placesOk (hs q)
    · exact hs q
  | reset hl => exact fun p => by rw [hl]; exact ⟨⟨by decide, by decide⟩, nofun⟩

/-! ### Ports without a role (R165, R167) -/

theorem unboundHoldNothing_iff (s : State) : unboundHoldNothing s ↔ ∀ p, (s.link p).role = none → holdsNothing s p := Iff.rfl

theorem BlockMoves.unboundHoldNothing {s t : State} (h : BlockMoves s t) (hs : unboundHoldNothing s) : unboundHoldNothing t := by
  rw [unboundHoldNothing_iff] at *
  induction h with
  | yields h => exact fun p hr => h.holdsNothing ((h.link p).1.symm.trans hr) (hs p ((h.link p).1.symm.trans hr))
  | trans _ _ ih ik => exact ik (ih hs)
  | posts x slot hx =>
    intro p hr
    obtain ⟨hn, hp, hh⟩ := hs p hr
    refine ⟨hn, fun y hy => ?_, hh⟩
    rcases List.mem_append.1 hy with hy | hy
    · exact hp y hy
    · obtain rfl := List.mem_singleton.1 hy
      rintro rfl
      exact hx hr
  | holds sd q hq =>
    intro p hr
    obtain ⟨hn, hp, hh⟩ := hs p hr
    refine ⟨hn, hp, fun sd' e => ?_⟩
    rw [State.putHolder, records_onHold_eq] at e
    split at e
    · cases e
      exact hq hr
    · exact hh sd' e
  | binds q r _ =>
    intro p hr
    rw [State.link_onLink_eq] at hr
    split at hr
    · cases hr
    · exact hs p hr
  | unbinds q hq =>
    intro p hr
    rw [State.link_onLink_eq] at hr
    split at hr
    · rename_i e
      exact e ▸ hq
    · exact hs p hr

theorem PortMoves.unboundHoldNothing {s t : State} (h : PortMoves s t) (hs : unboundHoldNothing s) : unboundHoldNothing t := by
  induction h with
  | block h => exact h.unboundHoldNothing hs
  | trans _ _ ih ik => exact ik (ih hs)
  | link p f h => exact fun q hr => hs q ((role_link h q).symm.trans hr)
  | reset _ hq hp hh =>
    refine fun p _ => ⟨by rw [noticesOf, hq]; rfl, fun x hx => ?_, fun sd => by rw [hh]; exact nofun⟩
    rw [hp] at hx
    cases hx

end Sys2Proof.Machine
end

section
/-! What the operations on sessions, prompts, holds, cycle records and tests do to the ports' records (O57, O58). -/

namespace Sys2Proof.Machine

open Sys2Proof.Claims

/-! ### Sessions and the panel's power (R54 to R61, R152) -/

theorem Yields.sideActive (s : State) : Yields s s.sideActive := by
  unfold State.sideActive
  split
  · exact .other
  · exact .after (.presents ((Presents.startRender _ .lower).trans (.startRender _ .upper)))
  · exact .refl s
  · exact .refl s

theorem Yields.sideAsleep (s : State) : Yields s s.sideAsleep := by
  unfold State.sideAsleep
  split
  · split <;> exact .other
  all_goals exact .other

theorem Yields.startIdle (s : State) (sd : Side) : Yields s (s.startIdle sd) := .onSession s sd _

theorem Yields.beginSession (s : State) (sd : Side) : Yields s (s.beginSession sd) := by
  unfold State.beginSession
  exact (((Yields.onSession s sd _).trans (.startIdle _ sd)).trans (.presents (.offerMasked _ _))).trans (.sideActive _)

theorem Yields.sessionEvent (s : State) (sd : Side) : Yields s (s.sessionEvent sd) := by
  unfold State.sessionEvent
  split
  · exact .after (.startIdle (s.overtakeIdle sd) sd)
  · exact .beginSession s sd

theorem Yields.wakeForPrompt (s : State) (sd : Side) : Yields s (s.wakeForPrompt sd) := by
  unfold State.wakeForPrompt
  split
  · exact .refl s
  · exact .beginSession s sd

theorem Yields.putLanguage (s : State) (sd : Side) (l : Fin 4) : Yields s (s.putLanguage sd l) := by
  unfold State.putLanguage
  split
  · exact .refl s
  · exact (Yields.onSession s sd _).trans (.presents (.languageChanged _ sd))

theorem Yields.putMode (s : State) (sd : Side) (m : SpeechMode) : Yields s (s.putMode sd m) := by
  by_cases e : (s.records sd).session.mode = m
  · unfold State.putMode State.modeOf
    rw [if_pos e]
    exact .refl s
  · rw [State.putMode_eq e]
    exact (Yields.onSession s sd _).trans (.presents (.modeSet s sd m))

/-! ### Closures (R24, R25) -/

theorem Presents.beforeRemoval (s : State) (p : Prompt) :
    Presents (s.cancelTimers p) ((((s.cancelTimers p).stopSpan p.slot).dropReplay p.side p.slot).leaveRegion p) :=
  ((Presents.stopSpan (s.cancelTimers p) p.slot).trans (.dropReplay _ p.side p.slot)).trans (.leaveRegion _ p)

theorem Yields.removePrompt (s : State) (p : Prompt) : Yields s (s.removePrompt p) :=
  .after ((Yields.presents (.beforeRemoval s p)).trans (.filterPrompts _ _))

theorem Yields.closeNoChoice (s : State) (p : Prompt) (o : Closing) : Yields s (s.closeNoChoice p o) :=
  (Yields.removePrompt s p).trans (.presents (.offer _ _ _))

theorem Yields.closePrompt (s : State) (n : Nat) (o : Closing) : Yields s (s.closePrompt n o) := by
  unfold State.closePrompt
  split
  · exact .refl s
  · rename_i p _
    exact (Yields.closeNoChoice s p o).trans (.presents ((Presents.chooseRegion _ p.side).trans (.settle _)))

theorem Presents.afterRemovals (s : State) (l : List Prompt) :
    Presents s (((s.chooseAfter l .lower).chooseAfter l .upper).settle) :=
  ((Presents.chooseAfter s l .lower).trans (.chooseAfter _ l .upper)).trans (.settle _)

theorem Yields.removeOwned (s : State) (p : Port) : Yields s (s.removeOwned p) :=
  (Yields.foldl Yields.removePrompt _ s).trans (.presents (.afterRemovals _ _))

theorem Yields.endSession (s : State) (sd : Side) (cause : EndCause) : Yields s (s.endSession sd cause) := by
  unfold State.endSession
  dsimp only
  generalize hu : (State.sessionPrompts _ sd).foldl _ _ = u
  have hs : Yields s u := by
    rw [← hu]
    exact (Yields.onSession s sd _).trans (.foldl (fun s n => .closePrompt s n .unanswered) _ _)
  refine hs.trans (((Yields.onSession u sd (houseSession u.cfg)).trans (.presents (.offerMasked _ (endedNotice sd cause)))).trans
    ((Yields.sideAsleep _).trans (.presents ?_)))
  refine Presents.trans ?_ ((Presents.softMode _ sd _).trans (.settle _))
  split
  · exact .languageChanged _ sd
  · exact .refl _

/-! ### Holds and cycle records (R65 to R74) -/

theorem Yields.freeHold (s : State) (sd : Side) : Yields s (s.freeHold sd) :=
  .after ((Yields.holdEnds (s.overtakeLapse sd) sd).trans (.presents (.holderChanged _ sd)))

/-- The choices that follow a hold that a client reset ends (R50, R67). -/
theorem Presents.afterFreed (s : State) : Presents s (((s.chooseRegion .lower).chooseRegion .upper).settle) :=
  ((Presents.chooseRegion s .lower).trans (.chooseRegion _ .upper)).trans (.settle _)

theorem Yields.freeHeld (s : State) (p : Port) (sd : Side) : Yields s (s.freeHeld p sd) := by
  unfold State.freeHeld
  split
  · exact (Yields.freeHold s sd).trans (.presents (.afterFreed _))
  · exact .refl s

theorem Yields.lapseOut (s : State) (sd : Side) : Yields s (s.lapseOut sd) := by
  unfold State.lapseOut
  split
  · exact .other
  · split
    · split
      · exact .refl s
      · exact (Yields.holdEnds s sd).trans (.presents ((Presents.offer _ _ _).trans (.holderChanged _ sd)))
    · exact .refl s

/-- What follows a cycle record's new contents: PHASE and the display (R71, R72). -/
theorem Presents.cycleFollowed (s : State) (sd : Side) (c : Cycle) (l : List Port) :
    Presents ((s.overtakeSecond sd c).onCycle sd fun _ => c) (s.putCycle sd c l) := by
  unfold State.putCycle
  dsimp only
  split
  · split
    · exact .refl _
    · exact .offerEach _ _ _
  · refine Presents.trans ?_ (.countdownChanged _ sd)
    split
    · exact .refl _
    · exact .offerEach _ _ _

theorem Yields.putCycle (s : State) (sd : Side) (c : Cycle) (l : List Port) : Yields s (s.putCycle sd c l) :=
  .after ((Yields.onCycle (s.overtakeSecond sd c) sd fun _ => c).trans (.presents (.cycleFollowed s sd c l)))

theorem Yields.secondOut (s : State) (sd : Side) : Yields s (s.secondOut sd) := by
  unfold State.secondOut
  split
  · exact .other
  · split
    · unfold State.fallCountdown
      refine (Yields.onCycle s sd fun _ => (s.records sd).cycle.fallen).trans (.presents ?_)
      simp only
      refine Presents.trans ?_ (.countdownChanged _ sd)
      split
      · exact .offerMasked _ _
      · exact .refl _
    · exact .refl s

/-! ### Tests and service mode (R178 to R185) -/

theorem Yields.finishTest (s : State) (k : TestKind) (v : Verdict) (a b : Nat) : Yields s (s.finishTest k v a b) :=
  .after (.presents (.offerRoom _ _))

theorem Yields.dropTestRead (s : State) : Yields s s.dropTestRead := by
  unfold State.dropTestRead
  split <;> exact .other

theorem Yields.abortTest (s : State) : Yields s s.abortTest := by
  unfold State.abortTest
  split
  · exact .after ((Yields.dropTestRead _).trans (.finishTest _ _ _ _ _))
  · exact .refl s
  · exact .refl s

theorem Yields.leaveService (s : State) : Yields s s.leaveService := by
  unfold State.leaveService
  split
  · exact ((Yields.abortTest s).trans (.presents (.abortAudition _))).trans (.after (.presents (.settle _)))
  · exact .refl s

/-! ### Client reset and roles (R164 to R166) -/

theorem Yields.roomLeaves (s : State) (p : Port) : Yields s (s.roomLeaves p) := by
  unfold State.roomLeaves
  split
  · exact .leaveService s
  · exact .refl s

theorem Yields.drumCycleReset (s : State) (p : Port) : Yields s (s.drumCycleReset p) := by
  unfold State.drumCycleReset
  split
  · exact .putCycle s _ _ _
  · exact .refl s

theorem Yields.emptyQueue (s : State) (p : Port) : Yields s (s.emptyQueue p) := .fetched p List.nil_suffix

theorem Yields.clientReset (s : State) (p : Port) : Yields s (s.clientReset p) :=
  .after (t := s.resetPortStore p) (((((Yields.removeOwned _ p).trans (.freeHeld _ p .lower)).trans (.freeHeld _ p .upper)).trans
    (.roomLeaves _ p)).trans ((Yields.emptyQueue _ p).trans (.drumCycleReset _ p)))

/-- A prompt removed leaves the others as they were posted. -/
theorem mem_removePrompt {s : State} {p x : Prompt} (hx : x ∈ (s.removePrompt p).ptb.prompts) :
    x.slot ≠ p.slot ∧ ∃ y ∈ s.ptb.prompts, y.posted = x.posted := by
  obtain ⟨hx, hn⟩ := List.mem_filter.1 hx
  exact ⟨of_decide_eq_true hn, mem_of_posted (Presents.beforeRemoval s p).prompts hx⟩

theorem mem_removePrompts {x : Prompt} : ∀ {l : List Prompt} {s : State}, x ∈ (l.foldl (fun s p => s.removePrompt p) s).ptb.prompts →
    x.slot ∉ l.map (·.slot) ∧ ∃ y ∈ s.ptb.prompts, y.posted = x.posted
  | [], _, hx => ⟨List.not_mem_nil, x, hx, rfl⟩
  | p :: l, s, hx => by
    obtain ⟨hl, y, hy, e⟩ := mem_removePrompts (l := l) hx
    obtain ⟨hp, z, hz, e'⟩ := mem_removePrompt hy
    refine ⟨?_, z, hz, e'.trans e⟩
    rw [List.map_cons, List.mem_cons, not_or]
    exact ⟨(slot_of_posted e).symm.trans_ne hp, hl⟩

/-- A client reset leaves its port no prompt (R25). -/
theorem removeOwned_owner {s : State} {p : Port} {x : Prompt} (hx : x ∈ (s.removeOwned p).ptb.prompts) : x.owner ≠ p := by
  obtain ⟨y, hy, e⟩ := mem_of_posted (Presents.afterRemovals _ (s.ownedBy p)).prompts hx
  obtain ⟨hs, z, hz, e'⟩ := mem_removePrompts hy
  rintro rfl
  have hz' : z ∈ s.ownedBy x.owner := List.mem_filter.2 ⟨hz, decide_eq_true (owner_of_posted (e'.trans e))⟩
  exact hs (List.mem_map.2 ⟨z, hz', slot_of_posted e'⟩)

/-- A client reset frees each side that its port holds (R67). -/
theorem freeHeld_holder (s : State) (p : Port) (sd : Side) : ((s.freeHeld p sd).records sd).hold.holder ≠ some p := by
  unfold State.freeHeld
  split
  · have h : ((((s.freeHold sd).chooseRegion .lower).chooseRegion .upper).settle).scu =
        ((s.overtakeLapse sd).onHold sd fun _ => ⟨none, none⟩).scu :=
      ((Presents.holderChanged _ sd).trans (.afterFreed _)).scu
    unfold State.records
    rw [h, State.onHold_scu, PerSide.get_update_same]
    exact nofun
  · assumption

/-- PHASE goes to the other ports (R74). -/
theorem notices_drumCycleReset (s : State) (p : Port) : noticesOf (s.drumCycleReset p) p = noticesOf s p := by
  have ho : ∀ (l : List Port) (u : State) n, p ∉ l → noticesOf (u.offerEach l n) p = noticesOf u p := fun l => by
    induction l with
    | nil => exact fun _ _ _ => rfl
    | cons q l ih =>
      intro u n hn
      obtain ⟨hq, hl⟩ := not_or.1 (List.mem_cons.not.1 hn)
      refine (ih (u.offer q n) n hl).trans ?_
      rw [noticesOf, queue_offer, if_neg fun h => hq h.1]
      rfl
  have hc : ∀ (u : State) sd, noticesOf (u.countdownChanged sd) p = noticesOf u p := fun u sd => by
    rw [countdownChanged_eq]
    rfl
  unfold State.drumCycleReset
  split
  · unfold State.resetCycle State.putCycle
    dsimp only
    split
    · split
      · rfl
      · exact ho _ _ _ (by simp)
    · rw [hc]
      split
      · rfl
      · exact ho _ _ _ (by simp)
  · rfl

/-- After its client reset a port holds nothing (R25, R67, R166). -/
theorem clientReset_holdsNothing (s : State) (p : Port) : holdsNothing (s.clientReset p) p := by
  unfold State.clientReset
  dsimp only
  generalize hu : (s.resetPortStore p).removeOwned p = u
  have hlow : Yields ((u.freeHeld p .lower).freeHeld p .upper) _ :=
    (Yields.roomLeaves _ p).trans ((Yields.emptyQueue _ p).trans (.drumCycleReset _ p))
  have hup := (Yields.freeHeld (u.freeHeld p .lower) p .upper).trans hlow
  refine ⟨?_, fun x hx => ?_, fun sd => ?_⟩
  · rw [notices_drumCycleReset]
    exact congrArg NoticeQueue.notices (PerPort.get_update_same _ p _)
  · obtain ⟨y, hy, e⟩ := ((Yields.freeHeld u p .lower).trans hup).prompts x hx
    rw [← e]
    exact removeOwned_owner (hu ▸ hy)
  · cases sd with
    | lower => exact fun h => freeHeld_holder u p .lower (hup.holder .lower p h)
    | upper => exact fun h => freeHeld_holder _ p .upper (hlow.holder .upper p h)

theorem Yields.drumUnbound (s : State) (r : Role) : Yields s (s.drumUnbound r) := by
  unfold State.drumUnbound
  split
  · exact .presents (.startUnbound s _)
  · exact .refl s

theorem Yields.drumBound (s : State) (r : Role) : Yields s (s.drumBound r) := by
  unfold State.drumBound
  split
  · exact .after (.presents (.stopUnbound s _))
  · exact .refl s

theorem BlockMoves.unbindRole (s : State) (p : Port) : BlockMoves s (s.unbindRole p) := by
  have h : BlockMoves s ((s.clientReset p).onLink p fun l => { l with role := none }) :=
    (BlockMoves.yields (.clientReset s p)).trans (.unbinds p (clientReset_holdsNothing s p))
  unfold State.unbindRole
  dsimp only
  split
  · exact h.trans (.yields (.drumUnbound _ _))
  · exact h

theorem BlockMoves.bind {s : State} {r : Role} (h : s.portOf r = none) (p : Port) : BlockMoves s (s.bind p r) :=
  (BlockMoves.binds p r h).trans (.yields ((Yields.masked _ p 0xFFF).trans (.drumBound _ r)))

/-! ### Keys and knobs (R75 to R89) -/

theorem Yields.routeTest (s : State) (sd : Side) (k : EventKey) (d : EventKind) : Yields s (s.routeTest sd k d) :=
  (Yields.presents (.offerRoom s (keyNotice sd k d true))).trans .other

theorem Yields.wakeKey (s : State) (sd : Side) (k : Key) : Yields s (s.wakeKey sd k) := (Yields.sessionEvent s sd).trans .other

theorem Yields.answer (s : State) (p : Prompt) (k : Key) (hold : Bool) : Yields s (s.answer p k hold) := by
  have ha : Presents s (((s.stopSpan p.slot).onPrompt p.slot acknowledge).dropReplay p.side p.slot) :=
    ((Presents.stopSpan s p.slot).trans (.onPrompt _ _ acknowledge fun _ => rfl)).trans (.dropReplay _ p.side p.slot)
  unfold State.answer
  split
  · exact .closePrompt s _ _
  · exact .closePrompt s _ _
  · exact .presents (ha.trans ((Presents.offer _ p.owner _).trans (.settle _)))
  · exact .presents (ha.trans ((Presents.offer _ p.owner _).trans (.settle _)))
  · exact .refl s
  · exact .refl s

theorem Yields.routeKey (s : State) (sd : Side) (k : Key) (hold : Bool) : Yields s (s.routeKey sd k hold) := by
  unfold State.routeKey
  split
  · split
    · exact (Yields.presents (.requestTone s 14 sd .click)).trans (.answer _ _ _ _)
    · exact .presents (.requestTone s 15 sd .reject)
  · exact .presents ((Presents.requestTone s 14 sd .click).trans (.offerKey _ sd _ _))

theorem Yields.acceptKey (s : State) (sd : Side) (k : Key) (hold : Bool) : Yields s (s.acceptKey sd k hold) := by
  unfold State.acceptKey
  split
  · exact .presents ((Presents.requestTone s 14 sd .click).trans (.helpRequest _ sd))
  · exact (Yields.presents (.requestTone s 14 sd .click)).trans (.putMode _ sd _)
  all_goals exact .routeKey s sd _ hold

theorem Yields.takeKey (s : State) (sd : Side) (k : Key) (hold : Bool) : Yields s (s.takeKey sd k hold) := by
  unfold State.takeKey
  split
  · exact .routeTest s sd _ _
  · split
    · exact .wakeKey s sd k
    · exact (Yields.sessionEvent s sd).trans (.acceptKey _ sd k hold)

theorem Yields.confirmMake (s : State) (sd : Side) (k : Key) : Yields s (s.confirmMake sd k) := by
  unfold State.confirmMake State.takeMake
  split
  · exact .other
  · split
    · refine .after (t := s.onKey sd k madeKey) ?_
      split
      · exact .refl _
      · split
        · exact .wakeKey _ sd k
        · exact .refl _
    all_goals exact .refl s

theorem Yields.pressKey (s : State) (sd : Side) (k : Key) : Yields s (s.pressKey sd k) := by
  unfold State.pressKey
  split
  · exact .other
  · split
    · split
      · exact .refl s
      · exact .after (.takeKey (s.onKey sd k restedKey) sd k false)
    all_goals exact .refl s

theorem Yields.holdKey (s : State) (sd : Side) (k : Key) : Yields s (s.holdKey sd k) := by
  unfold State.holdKey
  split
  · split
    · exact .refl s
    · exact .after (.takeKey (s.spend sd k) sd k true)
  all_goals exact .refl s

theorem Yields.confirmBreak (s : State) (sd : Side) (k : Key) : Yields s (s.confirmBreak sd k) := by
  unfold State.confirmBreak
  split
  · exact .other
  · split
    · split
      · exact .other
      · exact .pressKey s sd k
    all_goals exact .refl s

theorem Yields.takeDetent (s : State) (sd : Side) (d : EventKind) : Yields s (s.takeDetent sd d) := by
  unfold State.takeDetent
  split
  · exact .routeTest s sd _ _
  · split
    · exact .sessionEvent s sd
    · exact (Yields.sessionEvent s sd).trans (.presents (.offerKey _ sd _ _))

theorem Yields.moveKnob (s : State) (sd : Side) (p q : Bool) : Yields s (s.moveKnob sd p q) := by
  unfold State.moveKnob
  split
  · simp only
    split
    · exact .after (.takeDetent (s.onKnob sd fun _ => ((s.ksc.sides.get sd).knob.moved p q).1) sd _)
    · exact .other
  · exact .other

theorem Yields.moveContact (s : State) (sd : Side) (k : Key) (closed : Bool) : Yields s (s.moveContact sd k closed) := by
  unfold State.moveContact
  split <;> exact .other

/-! ### Timers (R17 to R20, R37, R56, R128 to R139, R152, R185) -/

theorem Yields.expire (s : State) (n : Nat) : Yields s (s.expire n) := by
  unfold State.expire
  split
  · exact .other
  · split
    · split
      · exact (Yields.closePrompt s n _).trans .other
      · exact .refl s
    · exact .refl s

theorem Yields.dwellOut (s : State) (n : Nat) : Yields s (s.dwellOut n) := by
  unfold State.dwellOut
  split
  · exact .other
  · split
    · split
      · exact (Yields.closePrompt s n _).trans .other
      · exact .refl s
    · exact .refl s

theorem Yields.repeatFalls (s : State) (n : Nat) : Yields s (s.repeatFalls n) := by
  unfold State.repeatFalls
  split
  · exact .other
  · split
    · split
      · exact .presents ((Presents.onPrompt s n fallDue fun _ => rfl).trans (.settle _))
      · exact .refl s
    · exact .refl s

theorem Yields.idleOut (s : State) (sd : Side) : Yields s (s.idleOut sd) := by
  unfold State.idleOut
  split
  · exact .other
  · split
    · exact .endSession s sd _
    · exact .refl s

theorem Yields.unboundOut (s : State) (sd : Side) : Yields s (s.unboundOut sd) := by
  unfold State.unboundOut
  split
  · exact .other
  · split
    · exact .presents (.fallbackFalls s sd)
    · exact .refl s

theorem Yields.recoveryEnd (s : State) : Yields s s.recoveryEnd := by
  unfold State.recoveryEnd
  split
  · split
    · exact .presents ((Presents.offerEach _ _ _).trans ((silence_presents s).trans (.settle _)))
    · exact .after (.presents (.settle _))
  · exact .refl s

theorem Presents.blockPlayed (s : State) (r : Resolution) (k : Nat) : Presents s (s.blockPlayed r k) := by
  have h : s.blockPlayed r k =
      if (blockOver s r k).sch.safetyCut = true then (blockOver s r k).cutTurn else (blockOver s r k).onElement (afterBlock r k) := by
    rw [blockOver_eq]
    rfl
  rw [h]
  refine (blockOver_presents s r k).trans ?_
  split
  · exact .cutTurn _
  · exact .onElement _ _

theorem Presents.blockEnd (s : State) : Presents s s.blockEnd := by
  unfold State.blockEnd
  split
  · split
    · split
      · exact (Presents.blockPlayed s _ _).trans (.settle _)
      · exact .refl s
    · exact .refl s
  · exact .refl s

theorem Presents.pieceEnd (s : State) : Presents s s.pieceEnd := by
  unfold State.pieceEnd
  split
  · split
    · refine Presents.trans ?_ (.settle _)
      split
      · exact .cutTurn s
      · exact .onElement s _
    all_goals exact .refl s
  · exact .refl s

theorem Yields.noteEnd (s : State) : Yields s s.noteEnd := by
  unfold State.noteEnd
  split <;> exact .other

theorem Yields.darken (s : State) : Yields s s.darken := by
  unfold State.darken
  split
  · exact .other
  · split <;> exact .other

theorem Yields.settlingOut (s : State) : Yields s s.settlingOut := by
  unfold State.settlingOut State.settled
  split
  · dsimp only
    split <;> exact .other
  · exact .refl s

theorem Yields.endKeyCheck (s : State) : Yields s s.endKeyCheck := by
  unfold State.endKeyCheck
  split
  · exact .other
  · split
    · exact .finishTest s _ _ _ _
    · exact .refl s

/-! ### The end of the link ignore time (R171) -/

theorem Yields.unboundBegins (s : State) (sd : Side) : Yields s (s.unboundBegins sd) := by
  unfold State.unboundBegins
  split
  · exact .presents (.startUnbound s sd)
  · exact .refl s

/-- Every receiver leaves IGNORE (R171). -/
theorem Yields.receiversHunt (s : State) (k : Scanner) : Yields s { s with
    ignoreLeft := none, lnk := s.lnk.mapAll fun l => { l with receive := .hunt, gap := 0 }, ksc := k } := by
  refine .kept ⟨fun p => ?_, fun p => ?_, fun p => ?_, rfl, fun x hx => ⟨x, hx, rfl⟩, fun _ _ h => h⟩ <;> cases p <;> rfl

theorem Yields.ignoreEnds (s : State) : Yields s s.ignoreEnds :=
  ((Yields.receiversHunt s _).trans (.unboundBegins _ .lower)).trans (.unboundBegins _ .upper)

end Sys2Proof.Machine
end

section
/-! Every step keeps the notice queues (O57) and the ports' records (O58) as R156, R160, R165, R167 and R169 say. -/

namespace Sys2Proof.Machine

open Sys2Proof.Claims

/-! ### What a block hands back (R161, R162) -/

/-- A reply that no response is waiting in: responses wait by the Link Unit's doing alone (R160). -/
def Reply.proper : Reply → Prop
  | .answer _ _ => True
  | .wait w => ∀ f, w ≠ .response f

/-- A block has handled a request: it touched no response, and what it hands back is proper. -/
structure Handled (s : State) (x : Reply × State) : Prop where
  moves : BlockMoves s x.2
  reply : x.1.proper

theorem Handled.block {s u : State} (h : BlockMoves s u) {st : Status} {body : List Byte} : Handled s (.answer st body, u) := ⟨h, trivial⟩

theorem Handled.answer {s u : State} (h : Yields s u) {st : Status} {body : List Byte} : Handled s (.answer st body, u) :=
  .block (.yields h)

/-- An answer that changes nothing. -/
theorem Handled.only {s : State} {st : Status} {body : List Byte} : Handled s (.answer st body, s) := .answer (.refl s)

theorem Handled.waits {s u : State} (h : Yields s u) {w : Work} (hw : ∀ f, w ≠ .response f) : Handled s (.wait w, u) := ⟨.yields h, hw⟩

theorem roleReachesSide_bound {r : Option Role} {sd : Side} (h : roleReachesSide r sd = true) : r ≠ none := by
  rintro rfl
  cases h

/-- A side request is refused, or handled for a port that holds a role (R55). -/
theorem Handled.withSide {s : State} {p : Port} {f : Side → Reply × State} (b : Byte)
    (h : (s.link p).role ≠ none → ∀ sd, Handled s (f sd)) : Handled s (s.withSide p b f) := by
  unfold State.withSide
  split
  · exact .only
  · rename_i sd hc
    refine h ?_ sd
    unfold State.checkSide at hc
    split at hc
    · cases hc
    · split at hc
      · exact roleReachesSide_bound ‹_›
      · cases hc

/-! ### Requests on roles and notices (R164 to R169) -/

theorem Handled.bindRole (s : State) (p : Port) (b : Byte) : Handled s (s.bindRole p b) := by
  unfold State.bindRole
  split
  · exact .only
  · split
    · split <;> exact .only
    · split
      · exact .only
      · exact .block (.bind ‹_› p)

theorem Handled.fetchNotice (s : State) (p : Port) : Handled s (s.fetchNotice p) := by
  unfold State.fetchNotice
  split
  · exact .only
  · rename_i n rest h
    exact .answer (.fetched p (by rw [noticesOf, h]; exact List.suffix_cons n rest))

/-! ### Requests on prompts (R7 to R27) -/

theorem Yields.enter_follows (s : State) (x : Prompt) (slot : Nat) : Yields (s.place x slot) (s.enter x slot) := by
  unfold State.enter
  dsimp only
  refine Yields.trans ?_ (.presents (.offerPrompt _ slot))
  split
  · exact .wakeForPrompt _ _
  · exact .refl _

theorem Handled.acceptPrompt {s : State} {x : Prompt} (h : (s.link x.owner).role ≠ none) (old : Option Prompt) :
    Handled s (s.acceptPrompt x old) := by
  have ho : Yields s (match old with | some q => s.closeNoChoice q .replaced | none => s) := by
    cases old with
    | none => exact .refl s
    | some q => exact .closeNoChoice s q .replaced
  unfold State.acceptPrompt
  dsimp only
  split
  · exact .only
  · rename_i slot _
    refine .block (((BlockMoves.yields ho).trans (.posts x slot ?_)).trans
      (.yields ((Yields.enter_follows _ x slot).trans (.presents (Presents.trans ?_ (.settle _))))))
    · rwa [(ho.link _).1]
    · cases old with
      | none => exact .refl _
      | some q =>
        dsimp only
        split
        · exact .refl _
        · exact .chooseRegion _ _

theorem promptOf_owner {o : Port} {sd : Side} {b : PromptBody} {x : Prompt} (h : promptOf o sd b = some x) : x.owner = o := by
  unfold promptOf at h
  split at h
  · split at h
    · cases h
      rfl
    · cases h
  · cases h

theorem Handled.postPrompt (s : State) (p : Port) (b : PromptBody) : Handled s (s.postPrompt p b) := by
  refine .withSide b.side fun hr sd => ?_
  split
  · exact .only
  · rename_i x hx
    dsimp only
    split
    · exact .only
    · split
      · exact .only
      · exact .acceptPrompt (by rwa [promptOf_owner hx]) _

theorem Handled.withdrawPrompt (s : State) (p : Port) (t : Byte) : Handled s (s.withdrawPrompt p t) := by
  unfold State.withdrawPrompt
  split
  · exact .only
  · exact .answer (.closePrompt s _ _)

theorem Yields.optWord (s : State) (x : Option Nat) : Yields s (s.optWord x).2 := by
  cases x <;> exact .other

theorem Handled.queryPrompt (s : State) (p : Port) (t : Byte) : Handled s (s.queryPrompt p t) := by
  unfold State.queryPrompt
  split
  · exact .only
  · exact .answer ((Yields.optWord s _).trans (.optWord _ _))

theorem Yields.summary (s : State) (n : Nat) : Yields s (s.summary n).2 := by
  unfold State.summary
  split <;> exact .other

theorem Handled.listPrompts (s : State) (n : Byte) : Handled s (s.listPrompts n) := by
  unfold State.listPrompts
  split
  · exact .answer ((Yields.summary s _).trans (.summary _ _))
  · exact .only

/-! ### Requests of a side (R55 to R74) -/

theorem Handled.stopSession (s : State) (p : Port) (b : Byte) : Handled s (s.stopSession p b) := by
  refine .withSide b fun _ sd => ?_
  split
  · exact .answer (.after (.endSession (s.overtakeIdle sd) sd _))
  · exact .only

theorem Handled.setLanguage (s : State) (p : Port) (b l : Byte) : Handled s (s.setLanguage p b l) := by
  refine .withSide b fun _ sd => ?_
  split
  · exact .only
  · split
    · exact .answer (.putLanguage s sd _)
    · exact .only

theorem Handled.setSpeechMode (s : State) (p : Port) (b m : Byte) : Handled s (s.setSpeechMode p b m) := by
  refine .withSide b fun _ sd => ?_
  split
  · exact .only
  · split
    · exact .answer (.putMode s sd _)
    · exact .only

theorem Handled.claimSide (s : State) (p : Port) (b : Byte) : Handled s (s.claimSide p b) := by
  refine .withSide b fun hr sd => .block ?_
  split
  · exact (BlockMoves.holds sd p hr).trans (.yields (.presents (.holderChanged _ sd)))
  · split
    · exact (BlockMoves.yields (.other (t := s.overtakeLapse sd))).trans (.holds sd p hr)
    · exact .refl s

theorem Handled.releaseSide (s : State) (p : Port) (b : Byte) : Handled s (s.releaseSide p b) := by
  refine .withSide b fun _ sd => ?_
  split
  · exact .answer (.freeHold s sd)
  · exact .only

theorem Handled.setCycle (s : State) (p : Port) (b pr ph : Byte) (n : Word16) (r : Byte) : Handled s (s.setCycle p b pr ph n r) := by
  refine .withSide b fun _ sd => ?_
  split
  · exact .answer (.putCycle s sd _ _)
  · exact .only

theorem Handled.readCycle (s : State) (b : Byte) : Handled s (s.readCycle b) := by
  unfold State.readCycle
  split <;> exact .only

/-! ### Requests on the phrase store (R98 to R109) -/

theorem Handled.takeWrite (s : State) (p : Port) (g o : Nat) (d : List Byte) : Handled s (s.takeWrite p g o d) := by
  unfold State.takeWrite
  split
  · exact .only
  · split
    · exact .answer .other
    · split
      · exact .only
      · split
        · exact .only
        · exact .waits (.refl s) nofun

theorem Handled.writePage (s : State) (p : Port) (g o : Word16) (n : Byte) (d : List Byte) : Handled s (s.writePage p g o n d) := by
  unfold State.writePage
  split
  · exact .only
  · split
    · exact .waits (.refl s) nofun
    · exact .takeWrite s p _ _ d

theorem Handled.readPage (s : State) (p : Port) (g o : Word16) (n : Byte) : Handled s (s.readPage p g o n) := by
  unfold State.readPage
  split
  · exact .only
  · split
    · exact .only
    · split
      · exact .only
      · exact .waits (.refl s) nofun

theorem Handled.readPostError (s : State) (p : Port) : Handled s (s.readPostError p) := by
  unfold State.readPostError
  split <;> exact .answer .other

theorem Handled.setWindow (s : State) (t w f : Byte) (a b o : Word16) : Handled s (s.setWindow t w f a b o) := by
  unfold State.setWindow
  split
  · exact .only
  · split <;> exact .answer .other

theorem Handled.setPhrase (s : State) (n l f : Byte) (a : Word16) (b : Byte) : Handled s (s.setPhrase n l f a b) := by
  unfold State.setPhrase
  split
  · exact .only
  · split <;> exact .answer .other

theorem Handled.readPhrase (s : State) (n l : Byte) : Handled s (s.readPhrase n l) := by
  unfold State.readPhrase
  split <;> exact .only

/-! ### Requests of the room controller (R133, R138, R148, R150, R175 to R185) -/

theorem Yields.configured (s : State) (c : Configuration) : Yields s (configured s c) :=
  .kept ⟨fun _ => rfl, fun _ => rfl, fun _ => rfl, rfl, fun x hx => ⟨x, hx, rfl⟩, fun sd p h => by
    rw [records_configured] at h
    unfold housed at h
    split at h <;> exact h⟩

theorem Handled.setConfig (s : State) (b : ConfigBody) : Handled s (s.setConfig b) := by
  unfold State.setConfig
  split
  · exact .only
  · exact .answer ((Yields.configured s _).trans (.presents (putConfig_presents s _)))

theorem Handled.setTone (s : State) (n c : Byte) (l : List (Byte × Byte)) : Handled s (s.setTone n c l) := by
  unfold State.setTone
  split <;> exact .answer .other

theorem Handled.setGlyph (s : State) (c : Byte) (l : List Byte) : Handled s (s.setGlyph c l) := by
  unfold State.setGlyph
  split <;> exact .answer .other

theorem Handled.setSegmentMap (s : State) (l : List Byte) : Handled s (s.setSegmentMap l) := by
  unfold State.setSegmentMap
  split <;> exact .answer .other

theorem Handled.lampTest (s : State) (l b : Byte) : Handled s (s.lampTest l b) := by
  unfold State.lampTest
  split <;> exact .answer .other

theorem Handled.startStoreSum (s : State) (a b : Nat) : Handled s (s.startStoreSum a b) := by
  unfold State.startStoreSum
  split
  · exact .waits .other nofun
  · exact .only

theorem Handled.startSpeechCheck (s : State) (a b : Nat) : Handled s (s.startSpeechCheck a b) := by
  unfold State.startSpeechCheck
  split
  · split
    · exact .answer (.finishTest s _ _ _ _)
    · split
      · exact .answer (.finishTest s _ _ _ _)
      · exact .waits .other nofun
  · exact .only

theorem Handled.startKeyCheck (s : State) (a : Nat) : Handled s (s.startKeyCheck a) := by
  unfold State.startKeyCheck
  split <;> exact .answer .other

theorem Handled.selfTest (s : State) (t : Byte) (a b : Word16) : Handled s (s.selfTest t a b) := by
  unfold State.selfTest
  split
  · exact .only
  · exact .only
  · split
    · exact .only
    · exact .startStoreSum s _ _
    · exact .startSpeechCheck s _ _
    · exact .answer (.finishTest s _ _ _ _)
    · exact .startKeyCheck s _

theorem Handled.readTestResult (s : State) : Handled s s.readTestResult := by
  unfold State.readTestResult
  split <;> exact .answer .other

theorem Handled.startAuditioning (s : State) (n l : Byte) : Handled s (s.startAuditioning n l) := by
  unfold State.startAuditioning
  split
  · exact .only
  · split
    · exact .answer ((Yields.presents (.abortAudition s)).trans (.after (.presents (.settle _))))
    · exact .only

theorem Yields.restoreSpeech (s : State) : Yields s s.restoreSpeech := by
  unfold State.restoreSpeech
  dsimp only
  split
  · exact .after (.presents ((Presents.offerEach _ _ _).trans (.settle _)))
  · exact .other

/-! ### Requests (R161, R162) -/

/-- Whatever the request, its block handles it. -/
theorem Handled.carryOut (s : State) (p : Port) (r : Request) : Handled s (s.carryOut p r) := by
  cases r with
  | bindRole b => exact .bindRole s p b
  | unbindRole => exact .block (.unbindRole s p)
  | clientReset => exact .answer (.clientReset s p)
  | readIdentity | readConfig => exact .only
  | fetchNotice => exact .fetchNotice s p
  | setAttentionMask m => exact .answer (.masked s p _)
  | postPrompt b => exact .postPrompt s p b
  | withdrawPrompt t => exact .withdrawPrompt s p t
  | queryPrompt t => exact .queryPrompt s p t
  | listPrompts n => exact .listPrompts s n
  | startSession b => exact .withSide b fun _ sd => .answer (.sessionEvent s sd)
  | endSession b => exact .stopSession s p b
  | setLanguage b l => exact .setLanguage s p b l
  | setSpeechMode b m => exact .setSpeechMode s p b m
  | claimSide b => exact .claimSide s p b
  | releaseSide b => exact .releaseSide s p b
  | setCycle b pr ph n r => exact .setCycle s p b pr ph n r
  | readCycle b => exact .readCycle s b
  | writePage g o n d => exact .writePage s p g o n d
  | readPage g o n => exact .readPage s p g o n
  | readPostError => exact .readPostError s p
  | setWindow t w f a b o => exact .setWindow s t w f a b o
  | setPhrase n l f a b => exact .setPhrase s n l f a b
  | readPhrase n l => exact .readPhrase s n l
  | setConfig b => exact .setConfig s b
  | setTone n c l => exact .setTone s n c l
  | setGlyph c l => exact .setGlyph s c l
  | setSegmentMap l => exact .setSegmentMap s l
  | enterService => exact .answer .other
  | leaveService => exact .answer (.leaveService s)
  | lampTest l b => exact .lampTest s l b
  | selfTest t a b => exact .selfTest s t a b
  | readTestResult => exact .readTestResult s
  | audition n l => exact .startAuditioning s n l
  | restoreSpeech => exact .answer (.restoreSpeech s)

theorem PortMoves.respond (s : State) (p : Port) (c q : Byte) (st : Status) (l : List Byte) : PortMoves s (s.respond p c q st l) :=
  .link p _ (.responds c q st l)

theorem PortMoves.reply (s : State) (p : Port) (c q : Byte) {r : Reply} (h : r.proper) : PortMoves s (s.reply p c q r) := by
  cases r with
  | answer st l => exact .respond s p c q st l
  | wait w => exact .link p _ (.waits c q w h)

theorem PortMoves.handled {s : State} {x : Reply × State} (h : Handled s x) (p : Port) (c q : Byte) :
    PortMoves s (x.2.reply p c q x.1) := (PortMoves.block h.moves).trans (.reply x.2 p c q h.reply)

theorem PortMoves.replyWork (s : State) (p : Port) {r : Reply} (h : r.proper) : PortMoves s (s.replyWork p r) := by
  unfold State.replyWork
  split
  · exact .reply s p _ _ h
  · exact .refl s

theorem PortMoves.takeRequest (s : State) (p : Port) (c q : Byte) (r : Option Request) : PortMoves s (s.takeRequest p c q r) := by
  unfold State.takeRequest
  split
  · exact .link p _ (.refuses _ rfl)
  · split
    · exact .respond s p c q _ _
    · split
      · exact .respond s p c q _ _
      · split
        · exact .handled (.carryOut s p _) p c q
        · exact .respond s p c q _ _

theorem PortMoves.receiver (s : State) (p : Port) (r : Receive) : PortMoves s (s.receiver p r) := .yields (.receiver s p r)

theorem PortMoves.requestArrives (s : State) (p : Port) (q : Byte) (r : Request) : PortMoves s (s.requestArrives p q r) := by
  unfold State.requestArrives
  split
  · exact .refl s
  · exact (PortMoves.receiver s p .hunt).trans (.takeRequest _ p _ q _)

theorem PortMoves.frameError (s : State) (p : Port) : PortMoves s (s.frameError p) :=
  (PortMoves.receiver s p .hunt).trans (.link p _ (.refuses _ rfl))

theorem PortMoves.takeFrame (s : State) (p : Port) (l : List Byte) (c : Word16) : PortMoves s (s.takeFrame p l c) := by
  unfold State.takeFrame
  split
  · split
    · exact (PortMoves.receiver s p .hunt).trans (.takeRequest _ p _ _ _)
    · exact .frameError s p
  · exact .frameError s p

theorem PortMoves.frameArrives (s : State) (p : Port) (l : List Byte) (c : Word16) : PortMoves s (s.frameArrives p l c) := by
  unfold State.frameArrives
  split
  · exact .refl s
  · split
    · exact .takeFrame s p l c
    · exact .frameError s p

theorem PortMoves.takeByte (s : State) (p : Port) (b : Byte) (e : Bool) : PortMoves s (s.takeByte p b e) := by
  unfold State.takeByte
  split
  · exact .refl s
  · split
    · exact .receiver s p _
    · exact .refl s
  · split
    · exact .receiver s p _
    · exact .frameError s p
  · split
    · exact .receiver s p _
    · exact .frameError s p
  · split
    · exact .receiver s p _
    · exact .frameError s p
  · split
    · exact .takeFrame s p _ _
    · exact .frameError s p

theorem Yields.gapCame (s : State) (p : Port) : Yields s (s.gapCame p) := .onLink s p (fun _ => rfl) (fun _ => rfl) fun _ => rfl

theorem PortMoves.gapExpires (s : State) (p : Port) : PortMoves s (s.gapExpires p) := by
  unfold State.gapExpires
  split
  · exact .yields (.gapCame s p)
  · split
    · exact (PortMoves.frameError s p).trans (.yields (.gapCame _ p))
    · exact .refl s

/-! ### The store bus (R107, R110) -/

theorem PortMoves.bufferEmptied (s : State) (p : Port) : PortMoves s (s.bufferEmptied p) := by
  unfold State.bufferEmptied
  split
  · exact .handled (.takeWrite s p _ _ _) p _ _
  · exact .reply s p _ _ (r := .wait _) nofun
  · exact .refl s

theorem PortMoves.failPosted (s : State) (p : Port) (w : Posted) (c : PostCause) : PortMoves s (s.failPosted p w c) :=
  (PortMoves.yields (.after (.presents (.offer _ p _)))).trans (.bufferEmptied _ p)

theorem PortMoves.grantPosted (s : State) (p : Port) (w : Posted) : PortMoves s (s.grantPosted p w) := by
  unfold State.grantPosted
  split
  · exact .failPosted s p w _
  · split
    · exact .failPosted s p w _
    · dsimp only
      split <;> exact .yields .other

theorem PortMoves.grantClient (s : State) (p : Port) (c : PortClaim) : PortMoves s (s.grantClient p c) := by
  cases c with
  | posted w => exact (PortMoves.yields (.other (t := s.served p))).trans (.grantPosted _ p w)
  | read | write => exact .yields .other

theorem Yields.grantDisplay (s : State) (sd : Side) : Yields s (s.grantDisplay sd) := by
  unfold State.grantDisplay
  split <;> exact .other

theorem PortMoves.grantTest (s : State) (g n : Nat) : PortMoves s (s.grantTest g n) := by
  have hb : PortMoves s (s.beginTransfer (.test g n false)) := .yields .other
  unfold State.grantTest
  dsimp only
  split
  · exact hb.trans (.replyWork _ _ trivial)
  · exact hb

theorem PortMoves.arbitrate (s : State) : PortMoves s s.arbitrate := by
  unfold State.arbitrate
  split
  · exact .yields .other
  · split
    · exact .yields (.grantDisplay s _)
    · split
      · exact .grantClient s _ _
      · split
        · exact .grantTest s _ _
        · exact .refl s

theorem PortMoves.grantLoop : ∀ (n : Nat) (s : State), PortMoves s (State.grantLoop n s)
  | 0, s => .refl s
  | n + 1, s => by
    unfold State.grantLoop
    split
    · exact .refl s
    · exact ((PortMoves.arbitrate s).trans (.yields (.presents (.settle _)))).trans (PortMoves.grantLoop n _)

theorem Yields.testRead (s : State) (l : List Byte) : Yields s (s.testRead l) := by
  unfold State.testRead
  split
  · dsimp only
    split
    · exact .finishTest s _ _ _ _
    · exact .other
  · dsimp only
    split
    · exact .finishTest s _ _ _ _
    · exact .other
  · exact .refl s

theorem Yields.storeFetched (s : State) (g n : Nat) (r : Resolution) (l : List Byte) : Yields s (s.storeFetched g n r l) := by
  unfold State.storeFetched
  split
  · exact .refl s
  · split
    · exact .other
    · split <;> exact .other

theorem Yields.textRead (s : State) (sd : Side) (l : List Byte) : Yields s (s.textRead sd l) := by
  unfold State.textRead
  split
  · split <;> exact .presents (.continueRender s sd _ _ _)
  · exact .refl s

theorem PortMoves.finishTransfer (s : State) (t : Transfer) : PortMoves s (s.finishTransfer t) := by
  cases t with
  | speech g n r => exact .yields (.storeFetched s g n r _)
  | display sd g dropped =>
    cases dropped
    · exact .yields (.textRead s sd _)
    · exact .refl s
  | read p g o n => exact .replyWork s p trivial
  | write p g o d => exact (PortMoves.yields (.other (t := s.performWrite g o d))).trans (.replyWork _ p trivial)
  | posted p g o d => exact (PortMoves.yields (.other (t := (s.performWrite g o d).dropPosted p))).trans (.bufferEmptied _ p)
  | test g n dropped =>
    cases dropped
    · exact .yields (.testRead s _)
    · exact .refl s

theorem PortMoves.transferEnd (s : State) : PortMoves s s.transferEnd := by
  unfold State.transferEnd
  split
  · exact .refl s
  · rename_i t _
    exact ((PortMoves.yields .other).trans (.finishTransfer { s with psc := { s.psc with transfer := none } } t)).trans
      (.yields (.presents (.settle _)))

/-! ### Steps -/

theorem PortMoves.wholeReset {s t : State} (hl : t.lnk = State.reset.lnk) (hq : t.nq = State.reset.nq) (hp : t.ptb.prompts = [])
    (hs : t.scu = State.reset.scu) : PortMoves s t := by
  refine .reset (fun p => ?_) (fun p => ?_) hp fun sd => ?_
  · rw [State.link, hl]
    exact reset_link p
  · rw [hq]
    exact reset_queue p
  · rw [State.records, hs]
    exact congrArg (·.hold.holder) (reset_records sd)

/-- What a command does to the ports' records. -/
theorem exec_portMoves (c : Instr) (s : State) : ∃ t, exec c s = .next t ∧ PortMoves s t := by
  cases hr : requestOf c with
  | some x =>
    obtain ⟨p, q, r⟩ := x
    exact ⟨_, exec_requestOf hr s, .requestArrives s p q r⟩
  | none =>
    cases c with
    | powerOnReset => exact ⟨_, rfl, .wholeReset rfl rfl rfl rfl⟩
    | externalReset => exact ⟨_, rfl, .wholeReset rfl rfl rfl rfl⟩
    | ignoreTimeEnd =>
      refine ⟨_, rfl, ?_⟩
      split
      · exact .yields (.ignoreEnds s)
      · exact .refl s
    | requestFrame p l crc => exact ⟨_, rfl, .frameArrives s p l crc⟩
    | byteTaken p b e => exact ⟨_, rfl, .takeByte s p b e⟩
    | gapTimerExpiry p => exact ⟨_, rfl, .gapExpires s p⟩
    | frameTransmitted p => exact ⟨_, rfl, .link p _ .sends⟩
    | keyContactChange sd k b => exact ⟨_, rfl, .yields (.moveContact s sd k b)⟩
    | makeConfirmed sd k => exact ⟨_, rfl, .yields (.confirmMake s sd k)⟩
    | breakConfirmed sd k => exact ⟨_, rfl, .yields (.confirmBreak s sd k)⟩
    | press sd k => exact ⟨_, rfl, .yields (.pressKey s sd k)⟩
    | hold sd k => exact ⟨_, rfl, .yields (.holdKey s sd k)⟩
    | knobPhaseChange sd p q => exact ⟨_, rfl, .yields (.moveKnob s sd p q)⟩
    | promptExpiry n => exact ⟨_, rfl, .yields (.expire s n)⟩
    | dwellExpiry n => exact ⟨_, rfl, .yields (.dwellOut s n)⟩
    | repeatDue n => exact ⟨_, rfl, .yields (.repeatFalls s n)⟩
    | idleExpiry sd => exact ⟨_, rfl, .yields (.idleOut s sd)⟩
    | holdLapse sd => exact ⟨_, rfl, .yields (.lapseOut s sd)⟩
    | countdownFall sd => exact ⟨_, rfl, .yields (.secondOut s sd)⟩
    | fallbackDue sd => exact ⟨_, rfl, .yields (.unboundOut s sd)⟩
    | panelOff => exact ⟨_, rfl, .yields (.darken s)⟩
    | settlingEnd => exact ⟨_, rfl, .yields (.settlingOut s)⟩
    | recoveryEnd => exact ⟨_, rfl, .yields (.recoveryEnd s)⟩
    | displayRefresh | blinkHalf => exact ⟨_, rfl, .yields .other⟩
    | toneNoteEnd => exact ⟨_, rfl, .yields (.noteEnd s)⟩
    | busGrant => exact ⟨_, rfl, .grantLoop _ s⟩
    | transferEnd => exact ⟨_, rfl, .transferEnd s⟩
    | blockEnd => exact ⟨_, rfl, .yields (.presents (.blockEnd s))⟩
    | pausePieceEnd => exact ⟨_, rfl, .yields (.presents (.pieceEnd s))⟩
    | keyCheckEnd => exact ⟨_, rfl, .yields (.endKeyCheck s)⟩
    | _ => cases hr

/-- What a step does to the ports' records. -/
theorem step_portMoves {s t : State} (h : step s = .next t) : PortMoves s t := by
  unfold step at h
  split at h
  · cases h
    exact .yields (.tick s)
  · rename_i c rest _
    obtain ⟨u, hu, hm⟩ := exec_portMoves c (s.withQueue rest)
    rw [hu] at h
    cases h
    exact (PortMoves.yields .other).trans hm

/-- Settles O57: ATTN and the bounds of a queue are kept by all that a step may do to it. -/
theorem stepKeepsQueues : Obligations.StepKeepsQueues :=
  ⟨fun _ _ hs h => (step_portMoves h).attnFollows hs, fun _ _ hs h => (step_portMoves h).queuesBounded hs⟩

/-- Settles O58: each invariant is kept by all that a step may do to the ports' records. -/
theorem stepKeepsPorts : Obligations.StepKeepsPorts :=
  ⟨fun _ _ hs h => (step_portMoves h).rolesBoundOnce hs, fun _ _ hs h => (step_portMoves h).placesBounded hs,
    fun _ _ hs h => (step_portMoves h).unboundHoldNothing hs⟩

end Sys2Proof.Machine
end

section
/-! The end of the link ignore time (O6) and the receiver's table of states (O7). -/

namespace Sys2Proof.Machine

open Sys2Proof.Claims

/-! ### The end of the ignore time (R37, R75, R77, R171) -/

theorem unboundBegins_eq (s : State) (sd : Side) : s.unboundBegins sd =
    s.onSchedule sd fun x => if s.portOf (drumRole sd) = none then { x with unbound := ⟨0, true⟩ } else x := by
  unfold State.unboundBegins
  cases s.portOf (drumRole sd) with
  | none => rfl
  | some p => cases sd <;> rfl

/-- The receivers and the scanner as the ignore time ends (R75, R77, R171). -/
def huntBegun (s : State) : State :=
  { s with
    ignoreLeft := none
    lnk := s.lnk.mapAll fun l => { l with receive := .hunt, gap := 0 }
    ksc := ⟨true, s.ksc.sides.mapAll scannedSide⟩ }

theorem link_huntBegun (s : State) (p : Port) : (huntBegun s).link p = { s.link p with receive := .hunt, gap := 0 } :=
  PerPort.get_mapAll s.lnk _ p

theorem portOf_huntBegun (s : State) (r : Role) : (huntBegun s).portOf r = s.portOf r :=
  State.portOf_congr (fun p => by rw [link_huntBegun]) r

theorem ignoreEnds_eq (s : State) : s.ignoreEnds = ((huntBegun s).unboundBegins .lower).unboundBegins .upper := rfl

/-- The unbound timers of the sides whose drum role is free start at 0 (R37). -/
theorem ignoreEnds_schedule (s : State) (sd : Side) : s.ignoreEnds.schedule sd =
    if s.portOf (drumRole sd) = none then { s.schedule sd with unbound := ⟨0, true⟩ } else s.schedule sd := by
  have hp : ∀ r, ((huntBegun s).unboundBegins .lower).portOf r = s.portOf r := fun r => by
    rw [unboundBegins_eq, ← portOf_huntBegun]
    rfl
  rw [ignoreEnds_eq, unboundBegins_eq, hp, unboundBegins_eq, portOf_huntBegun]
  cases sd <;> rfl

/-- Beside the scheduler, the end of the ignore time is the receivers' and the scanner's start. -/
theorem ignoreEnds_frame (s : State) : s.ignoreEnds = { huntBegun s with sch := s.ignoreEnds.sch } := by
  rw [ignoreEnds_eq, unboundBegins_eq, unboundBegins_eq]
  rfl

theorem keyRecord_huntBegun (s : State) (sd : Side) (k : Key) : (huntBegun s).keyRecord sd k = scannedKey (s.keyRecord sd k) := by
  unfold State.keyRecord huntBegun
  rw [PerSide.get_mapAll]
  exact KeyBank.get_mapAll _ _ _

theorem knob_huntBegun (s : State) (sd : Side) : ((huntBegun s).ksc.sides.get sd).knob = scannedKnob (s.ksc.sides.get sd).knob :=
  congrArg SideKeys.knob (PerSide.get_mapAll s.ksc.sides scannedSide sd)

theorem scannedKnob_seeking (x : Knob) : (scannedKnob x).seeking = (x.p || x.q) := by
  show decide (knobPos x.p x.q ≠ .rest) = _
  cases h : (x.p || x.q)
  · exact decide_eq_false (not_not.2 ((knobPos_rest_iff _ _).2 h))
  · exact decide_eq_true fun e => by rw [(knobPos_rest_iff _ _).1 e] at h; cases h

/-- Settles O6: without an ignore time nothing changes; its end is the start of receivers, scanner and unbound timers. -/
theorem ignoreTimeEnds : Obligations.IgnoreTimeEnds := by
  intro s
  have he : exec .ignoreTimeEnd s = .next (if s.ignoreLeft.isSome then s.ignoreEnds else s) := rfl
  refine ⟨fun h => by rw [he, h]; rfl, fun h => ⟨s.ignoreEnds, by rw [he, if_pos (Option.isSome_iff_ne_none.2 h)], ?_⟩⟩
  rw [show s.ignoreEnds.schedule = _ from funext (ignoreEnds_schedule s), ignoreEnds_frame]
  refine ⟨fun b hb => ?_, rfl, link_huntBegun s, rfl, fun sd k => ?_, fun sd => ⟨?_, ?_⟩, fun _ => rfl⟩
  · cases b with
    | links | ignoreTime | scheduler | keys => simp at hb
    | overtaken => exact ⟨rfl, rfl⟩
    | _ => rfl
  · exact keyRecord_huntBegun s sd k
  · exact (congrArg Knob.seeking (knob_huntBegun s sd)).trans (scannedKnob_seeking _)
  · exact congrArg Knob.leaving (knob_huntBegun s sd)

/-! ### Frame errors (R158) -/

/-- A response that needs one of the three places, while the receiver enters HUNT (R157, R160). -/
theorem refusal_heard (l : PortLink) (f : Frame) : { heard l .hunt with
    transmit := if (l.transmit.filter fun g => !g.kept).length < 3 then l.transmit ++ [f] else l.transmit } =
      (l.receiver .hunt).refusal f := by
  unfold PortLink.refusal
  rw [heard_eq]
  by_cases h : (l.transmit.filter fun g => !g.kept).length < 3
  · rw [if_pos h]
    exact (if_pos h).symm
  · rw [if_neg h]
    exact (if_neg h).symm

theorem frameErrorLink_eq (l : PortLink) : frameErrorLink l = (l.receiver .hunt).refusal ⟨0, 0, .frameError, [], false⟩ :=
  refusal_heard l _

theorem frameError_eq (s : State) (p : Port) : s.frameError p = afterFrameError s p := by
  unfold State.frameError State.receiver afterFrameError
  rw [State.onLink_onLink, funext frameErrorLink_eq]
  rfl

theorem gapCame_frameError (s : State) (p : Port) : (s.frameError p).gapCame p = gapOver s p := by
  rw [frameError_eq]
  exact State.onLink_onLink s p frameErrorLink _

/-! ### Bytes and frames (R157) -/

theorem lengthOk_iff (n : Nat) : lengthOk n = true ↔ 2 ≤ n ∧ n ≤ 250 := decide_eq_true_iff

theorem timed_iff (r : Receive) : r.timed = true ↔ ¬ (r = .ignore ∨ r = .hunt) := by
  cases r <;> simp [Receive.timed]

/-- The end of a gap timer that nothing has overtaken (R157; log 5). -/
theorem gapExpires_eq {s : State} {p : Port} (h : (s.link p).gapLate = false) : s.gapExpires p =
    if (s.link p).receive = .ignore ∨ (s.link p).receive = .hunt then s else gapOver s p := by
  unfold State.gapExpires
  rw [h, if_neg Bool.false_ne_true, gapCame_frameError]
  simp only [timed_iff, ite_not]

section
variable {s : State} {p : Port} (b : Byte) (stop : Bool)

theorem takeByte_ignore (h : (s.link p).receive = .ignore) : s.takeByte p b stop = s := by
  unfold State.takeByte
  rw [h]

theorem takeByte_hunt (h : (s.link p).receive = .hunt) : s.takeByte p b stop =
    if stop = true ∧ b = 0xA5 then receiving s p .length else s := by
  unfold State.takeByte
  rw [h]
  simp only [Bool.and_eq_true, decide_eq_true_eq, receiving_eq]

theorem takeByte_length (h : (s.link p).receive = .length) : s.takeByte p b stop =
    if stop = true ∧ 2 ≤ b.toNat ∧ b.toNat ≤ 250 then receiving s p (.body b.toNat []) else afterFrameError s p := by
  unfold State.takeByte
  rw [h]
  simp only [Bool.and_eq_true, lengthOk_iff, receiving_eq, frameError_eq]

theorem takeByte_body {n : Nat} {got : List Byte} (h : (s.link p).receive = .body n got) : s.takeByte p b stop =
    if stop = true then
      receiving s p (if got.length + 1 < n then .body n (got ++ [b]) else .check (got ++ [b]) none)
    else afterFrameError s p := by
  unfold State.takeByte bodyReceive
  rw [h]
  simp only [receiving_eq, frameError_eq, List.length_append, List.length_singleton]

theorem takeByte_unstopped {body : List Byte} {low : Option Byte} (h : (s.link p).receive = .check body low) :
    s.takeByte p b false = afterFrameError s p := by
  unfold State.takeByte
  rw [h]
  cases low <;> exact frameError_eq s p

theorem takeByte_lowCrc {body : List Byte} (h : (s.link p).receive = .check body none) :
    s.takeByte p b true = receiving s p (.check body (some b)) := by
  unfold State.takeByte
  rw [h, receiving_eq]
  rfl

theorem frameArrives_listening {body : List Byte} (h : (s.link p).receive ≠ .ignore) (crc : Word16) : s.frameArrives p body crc =
    if 2 ≤ body.length ∧ body.length ≤ 250 then s.takeFrame p body crc else afterFrameError s p := by
  unfold State.frameArrives State.ignoring
  rw [decide_eq_false h, if_neg Bool.false_ne_true, frameError_eq]
  simp only [lengthOk_iff]

/-- The last CRC byte completes the frame (R157; log 3). -/
theorem takeByte_highCrc {body : List Byte} {low : Byte} (h : (s.link p).receive = .check body (some low)) (h2 : 2 ≤ body.length)
    (h250 : body.length ≤ 250) : s.takeByte p b true = s.frameArrives p body (wordOf low b) := by
  rw [frameArrives_listening (by rw [h]; exact nofun), if_pos ⟨h2, h250⟩]
  unfold State.takeByte
  rw [h]
  rfl

theorem frameArrives_wrong {body : List Byte} {crc : Word16} (h : (s.link p).receive ≠ .ignore)
    (hw : body.length < 2 ∨ 250 < body.length ∨ frameCrc body ≠ crc) : s.frameArrives p body crc = afterFrameError s p := by
  rw [frameArrives_listening h]
  split
  · rename_i hl
    have hc : frameCrc body ≠ crc := hw.elim (fun a => absurd hl.1 (Nat.not_le.2 a))
      fun a => a.resolve_left (Nat.not_lt.2 hl.2)
    unfold State.takeFrame
    rw [if_neg hc, frameError_eq]
  · rfl

end

theorem exec_byteTaken (s : State) (p : Port) (b : Byte) (stop : Bool) : exec (.byteTaken p b stop) s = .next (s.takeByte p b stop) := rfl

theorem exec_gapTimerExpiry (s : State) (p : Port) : exec (.gapTimerExpiry p) s = .next (s.gapExpires p) := rfl

theorem exec_requestFrame (s : State) (p : Port) (body : List Byte) (crc : Word16) :
    exec (.requestFrame p body crc) s = .next (s.frameArrives p body crc) := rfl

/-- Settles O7: the gap timer's end, then a byte in each state of the table, then frames with an error. -/
theorem receiverTakesBytes : Obligations.ReceiverTakesBytes := by
  intro s p b stop
  simp only [exec_byteTaken, exec_gapTimerExpiry, exec_requestFrame]
  refine ⟨fun h => ?_, fun h => by rw [gapExpires_eq h], fun h => by rw [takeByte_ignore b stop h], fun h => by rw [takeByte_hunt b stop h],
    fun h => by rw [takeByte_length b stop h], fun n got h => by rw [takeByte_body b stop h], fun body low h => ⟨?_, ?_, ?_⟩,
    fun body crc h hw => by rw [frameArrives_wrong h hw]⟩
  · unfold State.gapExpires
    rw [if_pos h]
    rfl
  · rintro rfl
    rw [takeByte_unstopped b h]
  · rintro rfl rfl
    rw [takeByte_lowCrc b h]
  · rintro rfl lo rfl h2 h250
    rw [takeByte_highCrc b h h2 h250]

end Sys2Proof.Machine
end

section
/-! Requests taken, answered, refused and left in work: READ IDENTITY (O12), FETCH NOTICE (O13), SET ATTENTION MASK (O14), whole frames
(O8), refusals (O9) and the transmit places (O10). -/

namespace Sys2Proof.Machine

open Sys2Proof.Claims

/-! ### The checks of a request code (R162, R163) -/

theorem codeCheck_unknown {code : Byte} (h : code ∉ requestCodes) (s : State) (p : Port) :
    s.codeCheck p code = some .unknownRequest := if_pos h

theorem codeCheck_unbound {s : State} {p : Port} {code : Byte} (h : code ∈ requestCodes) (hr : (s.link p).role = none) :
    s.codeCheck p code = if code = 0x01 ∨ code = 0x03 ∨ code = 0x04 then none else some .notBound := by
  unfold State.codeCheck unboundPermits
  rw [if_neg (not_not.2 h), hr]
  simp only [decide_eq_true_eq]

/-- The permissions are the table of R163. -/
theorem rolePermits_iff (r : Role) (code : Byte) : rolePermits r code = true ↔ ¬ mayNotSend r code := by
  have hr : (!roomOnly code) = true ↔ ¬ (code = 0x33 ∨ code = 0x34 ∨ (0x40 ≤ code.toNat ∧ code.toNat ≤ 0x56)) := by
    rw [Bool.not_eq_true', roomOnly, decide_eq_false_iff_not]
  cases r with
  | lowerDrum | upperDrum => exact hr
  | payment =>
    unfold rolePermits mayNotSend
    rw [Bool.and_eq_true, hr, decide_eq_true_eq, and_comm]
    exact not_or.symm
  | room => exact decide_eq_true_iff

theorem codeCheck_forbidden {s : State} {p : Port} {code : Byte} {r : Role} (h : code ∈ requestCodes) (hr : (s.link p).role = some r)
    (hm : mayNotSend r code) : s.codeCheck p code = some .notPermitted := by
  have hp : rolePermits r code = false := Bool.eq_false_iff.2 fun hp => (rolePermits_iff r code).1 hp hm
  unfold State.codeCheck
  rw [if_neg (not_not.2 h), hr]
  simp only [hp]
  rfl

theorem codeCheck_permitted {s : State} {p : Port} {code : Byte} {r : Role} (h : code ∈ requestCodes) (hr : (s.link p).role = some r)
    (hm : ¬ mayNotSend r code) : s.codeCheck p code =
      if (code = 0x52 ∨ code = 0x53 ∨ code = 0x55) ∧ s.stu.flag = false then some .serviceOnly else none := by
  unfold State.codeCheck serviceOnly
  rw [if_neg (not_not.2 h), hr]
  simp only [(rolePermits_iff r code).2 hm, Bool.not_true, Bool.false_eq_true, if_false, Bool.and_eq_true, decide_eq_true_eq,
    Bool.not_eq_true']

/-- READ IDENTITY is open to every port (R170). -/
theorem codeCheck_readIdentity (s : State) (p : Port) : s.codeCheck p 0x04 = none := by
  cases hr : (s.link p).role with
  | none => rw [codeCheck_unbound (by decide) hr, if_pos (.inr (.inr rfl))]
  | some r =>
    have hm : ¬ mayNotSend r 0x04 := by cases r <;> simp [mayNotSend]
    rw [codeCheck_permitted (by decide) hr hm, if_neg fun h => absurd h.1 (by decide)]

/-! ### Responses placed and responses that wait (R160, R161) -/

/-- The response to a request just taken, where the kept place is free. -/
theorem respond_placed {s : State} {p : Port} (h : (s.link p).keptTaken = false) (code q : Byte) (st : Status) (body : List Byte) :
    (s.receiver p .hunt).respond p code q st body = answered s p code q st body := by
  have hk : ((s.receiver p .hunt).link p).keptTaken = false := by rwa [State.keptTaken_receiver]
  rw [answered_eq, receiving_eq]
  exact State.onLink_congr _ p (PortLink.respond_free hk code q st body)

/-- A request just taken stays in work with what it waits for. -/
theorem waits_receiver (s : State) (p : Port) (code q : Byte) (w : Work) :
    (s.receiver p .hunt).reply p code q (.wait w) = inWorkWith s p code q w := by
  rw [← receiving_eq]
  exact State.onLink_onLink s p (fun l => heard l .hunt) _

/-- A response that finds the kept place taken waits for it with its request in work. -/
theorem respond_waits {u : State} {p : Port} (h : (u.link p).keptTaken = true) (code q : Byte) (st : Status) (body : List Byte) :
    u.respond p code q st body = u.reply p code q (.wait (.response ⟨code ||| 0x80, q, st, body, true⟩)) :=
  State.onLink_congr u p (PortLink.respond_taken h code q st body)

theorem respond_kept {s : State} {p : Port} (h : (s.link p).keptTaken = true) (code q : Byte) (st : Status) (body : List Byte) :
    (s.receiver p .hunt).respond p code q st body = inWorkWith s p code q (.response ⟨code ||| 0x80, q, st, body, true⟩) := by
  rw [respond_waits (by rwa [State.keptTaken_receiver]), waits_receiver]

/-! ### Requests taken (R161, R162) -/

section
variable {s : State} {p : Port} {r : Request} (q : Byte)

theorem requestArrives_ignoring (h : (s.link p).receive = .ignore) : s.requestArrives p q r = s := by
  unfold State.requestArrives State.ignoring
  rw [decide_eq_true h]
  rfl

theorem requestArrives_listening (h : (s.link p).receive ≠ .ignore) :
    s.requestArrives p q r = (s.receiver p .hunt).takeRequest p (requestCode r) q (some r) := by
  unfold State.requestArrives State.ignoring
  rw [decide_eq_false h]
  rfl

theorem busyLink_eq (l : PortLink) (code : Byte) :
    busyLink l code q = (l.receiver .hunt).refusal ⟨responseCode code, q, .busy, [], false⟩ := refusal_heard l _

theorem requestArrives_busy (h : (s.link p).receive ≠ .ignore) (hw : (s.link p).inWork ≠ none) :
    s.requestArrives p q r = { s with lnk := s.lnk.update p fun l => busyLink l (requestCode r) q } := by
  have hw' : ((s.receiver p .hunt).link p).inWork.isSome = true := by rwa [State.inWork_receiver, Option.isSome_iff_ne_none]
  rw [requestArrives_listening q h]
  unfold State.takeRequest
  rw [if_pos hw', funext fun l => busyLink_eq q l _]
  exact State.onLink_onLink s p _ _

theorem isSome_inWork_receiver (hw : (s.link p).inWork = none) : ((s.receiver p .hunt).link p).inWork.isSome = false := by
  rw [State.inWork_receiver, hw]
  rfl

/-- A request whose code a check refuses, whatever its body spells (R162). -/
theorem takeRequest_checked (hw : (s.link p).inWork = none) {code : Byte} {st : Status} (hc : s.codeCheck p code = some st)
    (o : Option Request) : (s.receiver p .hunt).takeRequest p code q o = (s.receiver p .hunt).respond p code q st [] := by
  unfold State.takeRequest
  rw [isSome_inWork_receiver hw, if_neg Bool.false_ne_true, State.codeCheck_receiver, hc]

/-- A body that spells no request (R159). -/
theorem takeRequest_spellsNone (hw : (s.link p).inWork = none) {code : Byte} (hc : s.codeCheck p code = none) :
    (s.receiver p .hunt).takeRequest p code q none = (s.receiver p .hunt).respond p code q .badField [] := by
  unfold State.takeRequest
  rw [isSome_inWork_receiver hw, if_neg Bool.false_ne_true, State.codeCheck_receiver, hc]

/-- A request of a size that no body spells (R159). -/
theorem takeRequest_illSized (hw : (s.link p).inWork = none) {code : Byte} (hc : s.codeCheck p code = none)
    (hs : wellSized r = false) :
    (s.receiver p .hunt).takeRequest p code q (some r) = (s.receiver p .hunt).respond p code q .badField [] := by
  unfold State.takeRequest
  rw [isSome_inWork_receiver hw, if_neg Bool.false_ne_true, State.codeCheck_receiver, hc]
  exact if_neg (Bool.eq_false_iff.1 hs)

theorem requestArrives_checked (hi : (s.link p).receive ≠ .ignore) (hw : (s.link p).inWork = none) {st : Status}
    (hc : s.codeCheck p (requestCode r) = some st) :
    s.requestArrives p q r = (s.receiver p .hunt).respond p (requestCode r) q st [] :=
  (requestArrives_listening q hi).trans (takeRequest_checked q hw hc _)

theorem requestArrives_illSized (hi : (s.link p).receive ≠ .ignore) (hw : (s.link p).inWork = none)
    (hc : s.codeCheck p (requestCode r) = none) (hs : wellSized r = false) :
    s.requestArrives p q r = (s.receiver p .hunt).respond p (requestCode r) q .badField [] :=
  (requestArrives_listening q hi).trans (takeRequest_illSized q hw hc hs)

/-- A request that its block answers while the kept place is taken stays in work with its response (R160). -/
theorem requestArrives_answerWaits {u : State} {st : Status} {body : List Byte} (hi : (s.link p).receive ≠ .ignore)
    (hw : (s.link p).inWork = none) (hk : (s.link p).keptTaken = true) (hc : s.codeCheck p (requestCode r) = none)
    (hs : wellSized r = true) (h : (s.receiver p .hunt).carryOut p r = (.answer st body, u)) :
    s.requestArrives p q r =
      u.reply p (requestCode r) q (.wait (.response ⟨requestCode r ||| 0x80, q, st, body, true⟩)) := by
  have hm := (Handled.carryOut (s.receiver p .hunt) p r).moves
  rw [h] at hm
  have ht : (u.link p).keptTaken = true := by
    unfold PortLink.keptTaken
    rw [(hm.responses p).2]
    exact (State.keptTaken_receiver s p p .hunt).trans hk
  rw [State.requestArrives_carried q hi hw hc hs, h]
  exact respond_waits ht _ _ _ _

/-- A request that its block leaves in work (R161). -/
theorem requestArrives_waits {u : State} {w : Work} (hi : (s.link p).receive ≠ .ignore) (hw : (s.link p).inWork = none)
    (hc : s.codeCheck p (requestCode r) = none) (hs : wellSized r = true) (h : (s.receiver p .hunt).carryOut p r = (.wait w, u)) :
    s.requestArrives p q r = u.reply p (requestCode r) q (.wait w) := by
  rw [State.requestArrives_carried q hi hw hc hs, h]

/-- A request that its block leaves in work without changing anything. -/
theorem requestArrives_waitsOnly {w : Work} (hi : (s.link p).receive ≠ .ignore) (hw : (s.link p).inWork = none)
    (hc : s.codeCheck p (requestCode r) = none) (hs : wellSized r = true)
    (h : (s.receiver p .hunt).carryOut p r = (.wait w, s.receiver p .hunt)) :
    s.requestArrives p q r = inWorkWith s p (requestCode r) q w := by
  rw [requestArrives_waits q hi hw hc hs h, waits_receiver]

end

/-! ### Identity and notices (R168 to R170) -/

/-- The body of READ IDENTITY looks at the port's role alone (R170). -/
theorem identity_receiver (s : State) (p : Port) :
    (s.receiver p .hunt).identity p = [0x43, 0x2A, 1, portNumber p, roleCode (s.link p).role] := by
  unfold State.identity
  rw [State.role_receiver]
  rfl

theorem carryOut_readIdentity (s : State) (p : Port) : (s.receiver p .hunt).carryOut p .readIdentity =
    (.answer .ok [0x43, 0x2A, 1, portNumber p, roleCode (s.link p).role], s.receiver p .hunt) := by
  rw [← identity_receiver]
  rfl

theorem exec_readIdentity {s : State} {p : Port} (q : Byte) (h : ready s p 0x04) : exec (.readIdentity p q) s =
    .next (answered s p 0x04 q .ok [0x43, 0x2A, 1, portNumber p, roleCode (s.link p).role]) :=
  congrArg _ (requestArrives_unchanged (r := .readIdentity) q h rfl (by rw [receiving_eq, carryOut_readIdentity]))

/-- Settles O12: the check on the code, and the answer. -/
theorem identityRead : Obligations.IdentityRead := fun s p q => ⟨codeCheck_readIdentity s p, exec_readIdentity q⟩

/-- Settles O13: the queue empty, and with a head. -/
theorem noticeFetched : Obligations.NoticeFetched := by
  intro s p q h
  have he : exec (.fetchNotice p q) s = .next (s.requestArrives p q .fetchNotice) := rfl
  have hf : (receiving s p .hunt).carryOut p .fetchNotice = (receiving s p .hunt).fetchNotice p := rfl
  refine ⟨fun hn => ?_, fun n rest hn => ?_⟩
  · have hn' : ((receiving s p .hunt).nq.get p).notices = [] := hn
    rw [he, requestArrives_unchanged (r := .fetchNotice) q h rfl (st := .empty) (body := []) (by rw [hf, State.fetchNotice, hn'])]
    rfl
  · have hn' : ((receiving s p .hunt).nq.get p).notices = n :: rest := hn
    rw [he, requestArrives_ready (r := .fetchNotice) q h rfl (u := (receiving s p .hunt).onQueue p fun q => q.setNotices rest)
      (st := .ok) (body := noticeBytes n rest.length) (by rw [hf, State.fetchNotice, hn']) rfl, answered_eq]
    rfl

/-- Settles O14: a mask of twelve bits is set, another is refused for its size. -/
theorem attentionMaskSet : Obligations.AttentionMaskSet := by
  intro s p q m h
  have he : exec (.setAttentionMask p q m) s = .next (s.requestArrives p q (.setAttentionMask m)) := rfl
  rw [he]
  split
  · rename_i hm
    rw [requestArrives_ready (r := .setAttentionMask m) q h (decide_eq_true hm) rfl rfl, answered_eq]
    rfl
  · rename_i hm
    obtain ⟨hi, hw, hk, hc⟩ := h
    rw [requestArrives_illSized (r := .setAttentionMask m) q hi hw hc (decide_eq_false hm), respond_placed hk]
    rfl

/-! ### Whole frames (R157, R159, R172) -/

/-- A frame with a right CRC is taken as what its body spells (R157, R159). -/
theorem frameArrives_spelled (s : State) (p : Port) (code q : Byte) {rest : List Byte} (h : rest.length ≤ 248) :
    s.frameArrives p (code :: q :: rest) (frameCrc (code :: q :: rest)) =
      if s.ignoring p then s else (s.receiver p .hunt).takeRequest p code q (parseRequest code rest) := by
  have hl : lengthOk (code :: q :: rest).length = true := by
    rw [lengthOk_iff, List.length_cons, List.length_cons]
    omega
  unfold State.frameArrives State.takeFrame
  rw [if_pos hl, if_pos rfl]

theorem frameArrives_request {s : State} {p : Port} {r : Request} {rest : List Byte} (q : Byte)
    (h : parseRequest (requestCode r) rest = some r) (hl : rest.length ≤ 248) :
    s.frameArrives p (requestCode r :: q :: rest) (frameCrc (requestCode r :: q :: rest)) = s.requestArrives p q r := by
  rw [frameArrives_spelled s p _ q hl, h]
  rfl

theorem frameArrives_spellsNone {s : State} {p : Port} {code : Byte} {rest : List Byte} (q : Byte) (h : ready s p code)
    (hn : parseRequest code rest = none) (hl : rest.length ≤ 248) :
    s.frameArrives p (code :: q :: rest) (frameCrc (code :: q :: rest)) = answered s p code q .badField [] := by
  obtain ⟨hi, hw, hk, hc⟩ := h
  rw [frameArrives_spelled s p code q hl, State.ignoring, decide_eq_false hi, if_neg Bool.false_ne_true, hn, takeRequest_spellsNone q hw hc]
  exact respond_placed hk _ _ _ _

/-- Settles O8: a frame is its request's row, READ IDENTITY as its row, and a body that spells no request. -/
theorem frameIsItsRequest : Obligations.FrameIsItsRequest := by
  refine ⟨fun s c p q r rest hc hp hl => ?_, fun s p q h => ?_, fun s p code q rest h hn hl => ?_⟩
  · rw [exec_requestFrame, frameArrives_request q hp hl, exec_requestOf hc]
  · rw [exec_requestFrame, ← exec_readIdentity q h]
    exact congrArg _ (frameArrives_request (r := .readIdentity) (rest := []) q rfl (Nat.zero_le _))
  · rw [exec_requestFrame, frameArrives_spellsNone q h hn hl]

/-! ### Requests that are not carried out (R160 to R163, R171) -/

/-- Settles O9: in IGNORE and while another request is in work, then the table of the checks, then the answers of the checks. -/
theorem requestsRefused : Obligations.RequestsRefused := by
  refine ⟨fun s c p q r hc => ?_, fun s p code => ⟨fun h => codeCheck_unknown h s p, codeCheck_unbound, fun r h hr =>
    ⟨codeCheck_forbidden h hr, codeCheck_permitted h hr⟩⟩, fun s c p q r st hc hi hw hk => ?_⟩ <;> rw [exec_requestOf hc]
  · exact ⟨fun h => by rw [requestArrives_ignoring q h], fun h hw => by rw [requestArrives_busy q h hw]⟩
  · exact ⟨fun h => by rw [requestArrives_checked q hi hw h, respond_placed hk],
      fun h hs => by rw [requestArrives_illSized q hi hw h hs, respond_placed hk]⟩

/-! ### Transmit places (R160, R161) -/

theorem exec_frameTransmitted (s : State) (p : Port) : exec (.frameTransmitted p) s = .next (s.onLink p PortLink.sent) := rfl

theorem sent_without {l : PortLink} (h : ∀ c q g, l.inWork ≠ some ⟨c, q, .response g⟩) : l.sent = { l with transmit := l.transmit.tail } := by
  unfold PortLink.sent
  dsimp only
  split
  · rename_i c q g e
    exact absurd e (h c q g)
  · rfl

theorem sent_waiting {l : PortLink} {c q : Byte} {g : Frame} (h : l.inWork = some ⟨c, q, .response g⟩) : l.sent = placedLink l g := by
  unfold PortLink.sent placedLink
  simp only [h]
  rfl

section
variable {s : State} {p : Port} (q : Byte) (hi : (s.link p).receive ≠ .ignore) (hw : (s.link p).inWork = none)
include hi hw

/-- READ PAGE waits for its read (R104). -/
theorem readPage_waits {page offset : Word16} {length : Byte} {w : Window} (hc : s.codeCheck p 0x31 = none)
    (hp : pageInRange page offset length) (hh : s.hit p page.toNat = some w) (hr : w.read = true) :
    ∃ waits, exec (.readPage p q page offset length) s =
      .next (inWorkWith s p 0x31 q (.read ((page.toNat + w.offset) % 512) offset.toNat length.toNat waits)) := by
  have hf : pageFieldsOk page offset length = true := decide_eq_true hp
  have hh' : (s.receiver p .hunt).hit p page.toNat = some w := hh
  have h : (s.receiver p .hunt).readPage p page offset length = (.wait (.read ((page.toNat + w.offset) % 512) offset.toNat length.toNat
      ((s.receiver p .hunt).ownWriteOn p (w.physical page.toNat))), s.receiver p .hunt) := by
    unfold State.readPage
    rw [hf, hh']
    simp only [hr]
    rfl
  exact ⟨_, congrArg _ (requestArrives_waitsOnly (r := .readPage page offset length) q hi hw hc rfl h)⟩

section
variable {page offset : Word16} {length : Byte} {data : List Byte} (hc : s.codeCheck p 0x30 = none)
  (hd : data.length = length.toNat) (hp : pageInRange page offset length)
include hc hd hp

/-- WRITE PAGE behind the port's buffered write is held (R108). -/
theorem writePage_held (hb : (s.portStore p).posted ≠ none) : exec (.writePage p q page offset length data) s =
    .next (inWorkWith s p 0x30 q (.heldWrite page.toNat offset.toNat data)) := by
  have hf : pageFieldsOk page offset length = true := decide_eq_true hp
  have hb' : ((s.receiver p .hunt).portStore p).posted.isSome = true := Option.isSome_iff_ne_none.2 hb
  have h : (s.receiver p .hunt).writePage p page offset length data =
      (.wait (.heldWrite page.toNat offset.toNat data), s.receiver p .hunt) := by
    unfold State.writePage
    rw [hf, hb']
    rfl
  exact congrArg _ (requestArrives_waitsOnly (r := .writePage page offset length data) q hi hw hc (decide_eq_true hd) h)

/-- WRITE PAGE direct waits for its transfer (R105). -/
theorem writePage_direct {w : Window} (hb : (s.portStore p).posted = none) (hh : s.hit p page.toNat = some w) (hn : w.posted = false)
    (hwr : w.write = true) (hpin : s.spe.pin ≠ some ((page.toNat + w.offset) % 512)) :
    exec (.writePage p q page offset length data) s =
      .next (inWorkWith s p 0x30 q (.write ((page.toNat + w.offset) % 512) offset.toNat data)) := by
  have hf : pageFieldsOk page offset length = true := decide_eq_true hp
  have hb' : ((s.receiver p .hunt).portStore p).posted = none := hb
  have hh' : (s.receiver p .hunt).hit p page.toNat = some w := hh
  have hpin' : (s.receiver p .hunt).spe.pin ≠ some (w.physical page.toNat) := hpin
  have h : (s.receiver p .hunt).writePage p page offset length data =
      (.wait (.write ((page.toNat + w.offset) % 512) offset.toNat data), s.receiver p .hunt) := by
    unfold State.writePage State.takeWrite
    rw [hf, hb', hh']
    simp only [hn, hwr, if_neg hpin']
    rfl
  exact congrArg _ (requestArrives_waitsOnly (r := .writePage page offset length data) q hi hw hc (decide_eq_true hd) h)

end

section
variable {a b : Word16} (hc : s.codeCheck p 0x53 = none)
include hc

/-- A SELF TEST that is accepted waits for its first transfer (R181). -/
theorem selfTest_waits {c : Instr} {n : Byte} (hq : requestOf c = some (p, q, .selfTest n a b)) {t : Running}
    (h : (s.receiver p .hunt).selfTest n a b = (.wait .testStart, (s.receiver p .hunt).setRunning t)) :
    exec c s = .next (inWorkWith (resultSet s (.running t)) p 0x53 q .testStart) := by
  rw [exec_requestOf hq, requestArrives_waits (r := .selfTest n a b) q hi hw hc rfl h]
  exact congrArg _ (waits_receiver (resultSet s (.running t)) p 0x53 q .testStart)

variable (hr : s.stu.result = .empty)
include hr

theorem storeSum_waits (hab : a.toNat ≤ b.toNat) (hb : b.toNat ≤ 511) : exec (.storeSum p q a b) s =
    .next (inWorkWith (resultSet s (.running (.storeSum a.toNat b.toNat 0 0))) p 0x53 q .testStart) := by
  refine selfTest_waits q hi hw hc (n := 1) rfl ?_
  unfold State.selfTest State.startStoreSum
  rw [show (s.receiver p .hunt).stu.result = .empty from hr]
  exact if_pos ⟨Nat.lt_succ_of_le hb, hab⟩

theorem speechCheck_waits {l : Fin 4} (ha : a.toNat ≤ 254) (hb : b.toNat = l.val) (he : (s.entry a.toNat l).present = true)
    (hn : (s.entry a.toNat l).blocks ≠ 0) : exec (.speechCheck p q a b) s =
      .next (inWorkWith (resultSet s (.running (.speechCheck
        ⟨a.toNat, l, (s.entry a.toNat l).first, (s.entry a.toNat l).blocks, (s.entry a.toNat l).text⟩ 0 0))) p 0x53 q .testStart) := by
  have hx : (s.receiver p .hunt).resolveExact a.toNat l =
      some ⟨a.toNat, l, (s.entry a.toNat l).first, (s.entry a.toNat l).blocks, (s.entry a.toNat l).text⟩ := if_pos he
  have hl : b.toNat < 4 := hb ▸ l.isLt
  have hl' : (⟨b.toNat, hl⟩ : Fin 4) = l := Fin.ext hb
  refine selfTest_waits q hi hw hc (n := 2) rfl ?_
  unfold State.selfTest State.startSpeechCheck
  rw [show (s.receiver p .hunt).stu.result = .empty from hr]
  simp only [testOf]
  rw [dif_pos ⟨hl, ha⟩, hl', hx]
  exact if_neg hn

end
end

/-- Settles O10: a place freed, then requests whose response finds the kept place taken, then requests left in work by their blocks. -/
theorem transmitPlaces : Obligations.TransmitPlaces := by
  refine ⟨fun s p => ⟨fun h => ?_, fun c q g h => ?_⟩, fun s p q hi hw hk => ?_, fun s c p q r hc hi hw hk => ⟨fun st h => ?_, fun h hs => ?_,
    fun st body u h hs hu => ?_⟩, fun s u c p q r w hc hi hw h hs hu => ?_, fun s p q hi hw _ => ⟨?_, ?_, ?_⟩⟩
  · exact congrArg _ (State.onLink_congr s p (g := fun l => { l with transmit := l.transmit.tail }) (sent_without h))
  · exact congrArg _ (State.onLink_congr s p (g := fun l => placedLink l g) (sent_waiting h))
  · rw [exec_requestOf (r := .readIdentity) rfl, requestArrives_answerWaits (r := .readIdentity) q hi hw hk (codeCheck_readIdentity s p) rfl
      (carryOut_readIdentity s p), waits_receiver]
    rfl
  · rw [exec_requestOf hc, requestArrives_checked q hi hw h, respond_kept hk]
  · rw [exec_requestOf hc, requestArrives_illSized q hi hw h hs, respond_kept hk]
  · rw [receiving_eq] at hu
    rw [exec_requestOf hc, requestArrives_answerWaits q hi hw hk h hs hu]
    rfl
  · rw [receiving_eq] at hu
    rw [exec_requestOf hc, requestArrives_waits q hi hw h hs hu]
    rfl
  · exact fun page offset length w hc => readPage_waits q hi hw hc
  · exact fun page offset length data hc hd hp =>
      ⟨writePage_held q hi hw hc hd hp, fun w hb hh => writePage_direct q hi hw hc hd hp hb hh⟩
  · exact fun a b hc hr => ⟨storeSum_waits q hi hw hc hr, fun l => speechCheck_waits q hi hw hc hr⟩

end Sys2Proof.Machine
end

section
/-! BIND ROLE (O15). -/

namespace Sys2Proof.Machine

open Sys2Proof.Claims

/-! ### A drum role bound (R37) -/

/-- Abandoning a read for a render touches the transfer alone, so showing a content leaves the rest of the store (R143). -/
theorem showContent_store (s : State) (sd : Side) (c : Content) :
    (s.showContent sd c).psc = { s.psc with transfer := (s.showContent sd c).psc.transfer } := by
  rw [showContent_eq]
  unfold readDropped
  split
  · split <;> rfl
  · rfl

theorem drumRole_inj {sd sd' : Side} : drumRole sd = drumRole sd' ↔ sd = sd' := by cases sd <;> cases sd' <;> decide

theorem otherSide_of_ne {sd sd' : Side} (h : sd' ≠ sd) : sd' = otherSide sd := by
  cases sd with
  | lower =>
    cases sd' with
    | lower => exact absurd rfl h
    | upper => rfl
  | upper =>
    cases sd' with
    | lower => rfl
    | upper => exact absurd rfl h

/-- What the binding of a role leaves beside links and queues: a drum's unbound timer stopped, an end of it that falls together with that
noted, and a fallback page taken down (R37; log 36). -/
structure DrumTaken (s t : State) (r : Role) : Prop where
  frame : t = { s with sch := t.sch, overtaken := t.overtaken, psc := { s.psc with transfer := t.psc.transfer }, dsp := t.dsp }
  schedule : ∀ sd, t.schedule sd =
    if drumRole sd = r then { s.schedule sd with unbound := ⟨0, false⟩, fallbackDue := false } else s.schedule sd
  overtaken : ∀ sd, t.overtaken.get sd = { s.overtaken.get sd with
    unbound := (s.overtaken.get sd).unbound ||
      decide (drumRole sd = r ∧ (s.schedule sd).unbound.running = true ∧ 500 ≤ (s.schedule sd).unbound.count) }
  takenDown : ∀ sd, drumRole sd = r → (s.region sd).content = .fallback →
    t.region sd = ⟨.empty, [], [], List.replicate 24 0x20, List.replicate 24 0x20, false, 0, 0, none⟩
  region : ∀ sd, ¬ (drumRole sd = r ∧ (s.region sd).content = .fallback) → t.region sd = s.region sd

/-- A role of no drum leaves the drums' timers. -/
theorem DrumTaken.of_not_drum (s : State) {r : Role} (h : ∀ sd, drumRole sd ≠ r) : DrumTaken s s r where
  frame := rfl
  schedule sd := (if_neg (h sd)).symm
  overtaken sd := by simp [h sd]
  takenDown sd e := absurd e (h sd)
  region _ _ := rfl

/-- A side's unbound timer stopped, the fallback page left as it stands (R37). -/
def unboundStopped (s : State) (sd : Side) : State :=
  (s.overtakeUnbound sd).onSchedule sd fun x => { x with unbound := ⟨0, false⟩, fallbackDue := false }

theorem stopUnbound_eq (s : State) (sd : Side) : s.stopUnbound sd =
    if (s.region sd).content = .fallback then (unboundStopped s sd).showContent sd .empty else unboundStopped s sd := rfl

theorem schedule_unboundStopped (s : State) (sd sd' : Side) : (unboundStopped s sd).schedule sd' =
    if sd' = sd then { s.schedule sd' with unbound := ⟨0, false⟩, fallbackDue := false } else s.schedule sd' :=
  PerSide.get_update _ _ _ _

theorem overtaken_unboundStopped (s : State) (sd sd' : Side) : (unboundStopped s sd).overtaken.get sd' = { s.overtaken.get sd' with
    unbound := (s.overtaken.get sd').unbound ||
      decide (sd' = sd ∧ (s.schedule sd').unbound.running = true ∧ 500 ≤ (s.schedule sd').unbound.count) } := by
  refine (PerSide.get_update s.overtaken sd sd' _).trans ?_
  split
  · rename_i e
    subst e
    simp only [true_and, Bool.decide_and, Bool.decide_eq_true]
    rfl
  · rename_i e
    simp [e]

theorem stopUnbound_taken (s : State) (sd : Side) : DrumTaken s (s.stopUnbound sd) (drumRole sd) := by
  have hf : s.stopUnbound sd = { unboundStopped s sd with
      psc := { s.psc with transfer := (s.stopUnbound sd).psc.transfer }, dsp := (s.stopUnbound sd).dsp } := by
    rw [stopUnbound_eq]
    split
    · exact (showContent_frame _ sd .empty).trans
        (congrArg (fun x => { unboundStopped s sd with psc := x, dsp := ((unboundStopped s sd).showContent sd .empty).dsp })
          (showContent_store (unboundStopped s sd) sd .empty))
    · rfl
  refine ⟨?_, fun sd' => ?_, fun sd' => ?_, fun sd' e hc => ?_, fun sd' h => ?_⟩
  · rw [hf]
    rfl
  · rw [hf]
    simp only [drumRole_inj]
    exact schedule_unboundStopped s sd sd'
  · rw [hf]
    simp only [drumRole_inj]
    exact overtaken_unboundStopped s sd sd'
  · obtain rfl := drumRole_inj.1 e
    rw [stopUnbound_eq, if_pos hc]
    exact region_showContent_empty _ sd'
  · rw [drumRole_inj] at h
    rw [stopUnbound_eq]
    split
    · rename_i hc
      rw [otherSide_of_ne fun e => h ⟨e, e ▸ hc⟩]
      exact region_showContent_other _ sd .empty
    · rfl

theorem drumBound_taken (s : State) (r : Role) : DrumTaken s (s.drumBound r) r := by
  cases r with
  | lowerDrum => exact stopUnbound_taken s .lower
  | upperDrum => exact stopUnbound_taken s .upper
  | payment | room => exact .of_not_drum s fun sd => by cases sd <;> decide

/-! ### BIND ROLE (R164) -/

theorem roleCode_of_roleOf {b : Byte} {r : Role} (h : roleOf b = some r) : roleCode (some r) = b := by
  unfold roleOf at h
  split at h
  · cases h; exact (‹b = _›).symm
  · split at h
    · cases h; exact (‹b = _›).symm
    · split at h
      · cases h; exact (‹b = _›).symm
      · split at h
        · cases h; exact (‹b = _›).symm
        · cases h

/-- A role bound: link, queue and mask, and the drum's timer (R164). -/
def roleBinding (s : State) (p : Port) (r : Role) : State :=
  (s.onLink p fun l => { l with role := some r }).onQueue p fun q => q.setMask 0xFFF

theorem bind_eq (s : State) (p : Port) (r : Role) : s.bind p r = (roleBinding s p r).drumBound r := rfl

theorem bindRole_badField {s : State} {b : Byte} (h : roleOf b = none) (p : Port) : s.bindRole p b = (.answer .badField [], s) := by
  unfold State.bindRole
  rw [h]

section
variable {s : State} {p : Port} {b : Byte} {r : Role} (hb : roleOf b = some r)
include hb

theorem bindRole_same (h : (s.link p).role = some r) : s.bindRole p b = (.answer .ok [b], s) := by
  unfold State.bindRole
  rw [hb, h]
  simp only [if_pos, roleCode_of_roleOf hb]

theorem bindRole_portBound {x : Role} (h : (s.link p).role = some x) (hx : x ≠ r) : s.bindRole p b = (.answer .portBound [], s) := by
  unfold State.bindRole
  rw [hb, h]
  exact if_neg hx

theorem bindRole_taken (h : (s.link p).role = none) (hr : s.portOf r ≠ none) : s.bindRole p b = (.answer .roleTaken [], s) := by
  obtain ⟨x, hx⟩ := Option.ne_none_iff_exists'.1 hr
  unfold State.bindRole
  simp only [hb, h, hx]

theorem bindRole_binds (h : (s.link p).role = none) (hr : s.portOf r = none) : s.bindRole p b = (.answer .ok [b], s.bind p r) := by
  unfold State.bindRole
  simp only [hb, h, hr, roleCode_of_roleOf hb]

end

/-- A binding touches no response. -/
theorem link_bind (s : State) (p p' : Port) (r : Role) :
    (s.bind p r).link p' = if p' = p then { s.link p' with role := some r } else s.link p' := by
  rw [bind_eq, (drumBound_taken _ r).frame]
  exact State.link_onLink_eq s p p' _

/-- A free role bound, with the response placed. -/
def boundState (s : State) (p : Port) (q b : Byte) (r : Role) : State :=
  ((s.receiver p .hunt).bind p r).onLink p fun l =>
    { l with inWork := none, transmit := l.transmit ++ [⟨0x01 ||| 0x80, q, .ok, [b], true⟩] }

theorem requestArrives_binds {s : State} {p : Port} {b : Byte} {r : Role} (q : Byte) (h : ready s p 0x01) (hb : roleOf b = some r)
    (hn : (s.link p).role = none) (hr : s.portOf r = none) : s.requestArrives p q (.bindRole b) = boundState s p q b r := by
  obtain ⟨hi, hw, hk, hc⟩ := h
  refine State.requestArrives_answer (r := .bindRole b) q hi hw hk hc rfl
    (bindRole_binds hb (by rwa [State.role_receiver]) (by rwa [State.portOf_receiver])) ?_
  rw [link_bind, if_pos rfl]
  exact State.keptTaken_receiver s p p .hunt

theorem link_boundState (s : State) (p : Port) (q b : Byte) (r : Role) :
    (boundState s p q b r).link p = { answeredLink (s.link p) 0x01 q .ok [b] with role := some r } := by
  unfold boundState answeredLink
  rw [State.link_onLink, link_bind, if_pos rfl, State.link_receiver, heard_eq]
  rfl

theorem link_boundState_other (s : State) {p p' : Port} (h : p' ≠ p) (q b : Byte) (r : Role) :
    (boundState s p q b r).link p' = s.link p' := by
  unfold boundState State.receiver
  rw [State.link_onLink_ne _ _ h, link_bind, if_neg h, State.link_onLink_ne _ _ h]

/-- Beside its port's link and queue, a binding is what it does to the drum's side. -/
theorem boundState_taken (s : State) (p : Port) (q b : Byte) (r : Role) : DrumTaken
    { s with lnk := (boundState s p q b r).lnk, nq := s.nq.update p fun x => x.setMask 0xFFF } (boundState s p q b r) r := by
  obtain ⟨hf, hs, ho, ht, hr⟩ := drumBound_taken (roleBinding (s.receiver p .hunt) p r) r
  rw [← bind_eq] at hf
  refine ⟨?_, hs, ho, ht, hr⟩
  unfold boundState
  rw [hf]
  rfl

/-- Settles O15: the refusals, and the binding of a free role. -/
theorem roleBound : Obligations.RoleBound := by
  intro s p q b h
  have he : exec (.bindRole p q b) s = .next (s.requestArrives p q (.bindRole b)) := rfl
  have hun : ∀ {st : Status} {body : List Byte},
      (receiving s p .hunt).bindRole p b = (.answer st body, receiving s p .hunt) →
        exec (.bindRole p q b) s = .next (answered s p 0x01 q st body) := fun hc =>
    congrArg _ (requestArrives_unchanged (r := .bindRole b) q h rfl hc)
  have hl : ∀ {x : Option Role}, (s.link p).role = x → ((receiving s p .hunt).link p).role = x := fun hx => by rwa [role_receiving]
  refine ⟨fun hb => hun (bindRole_badField hb p), fun r hb => ⟨fun hr => hun (bindRole_same hb (hl hr)),
    fun x hx hne => hun (bindRole_portBound hb (hl hx) hne),
    fun hn hr => hun (bindRole_taken hb (hl hn) (by rwa [receiving_eq, State.portOf_receiver])), fun hn hr => ?_⟩⟩
  obtain ⟨hf, hsch, hov, htd, hrg⟩ := boundState_taken s p q b r
  refine ⟨boundState s p q b r, by rw [he, requestArrives_binds q h hb hn hr], link_boundState s p q b r,
    fun p' hp => link_boundState_other s hp q b r, ?_, fun p' hp => ?_, fun sd hd => ⟨?_, fun hc => ?_, fun hc => ?_⟩,
    fun sd hd => ⟨?_, ?_⟩, ?_, hov, fun k hk => ?_, ?_, ?_, ?_⟩
  · rw [hf]
    exact PerPort.get_update_same s.nq p _
  · rw [hf]
    exact PerPort.get_update_ne s.nq _ hp
  · exact (hsch sd).trans (if_pos hd)
  · rw [htd sd hd hc]
    exact ⟨rfl, rfl, rfl⟩
  · exact hrg sd fun x => hc x.2
  · exact (hsch sd).trans (if_neg hd)
  · exact hrg sd fun x => hd x.1
  · rw [hf]
  · rw [hf]
    cases k with
    | links | notices | scheduler | display | store | overtaken => simp at hk
    | _ => rfl
  all_goals rw [hf]

end Sys2Proof.Machine
end

section
/-! READ TEST RESULT and KEY_CHECK_END (O46). -/

namespace Sys2Proof.Machine

open Sys2Proof.Claims

/-! ### READ TEST RESULT (R181) -/

/-- A code whose value the layout leaves unstated is one of the codes sent (log 8). -/
theorem unstatedCode_lt (s : State) (i : Nat) {n : Nat} (h0 : 0 < n) : (s.unstatedCode i n).toNat < n := by
  have h := Nat.mod_lt (Config.unstatedByte (s.free + i)).toNat h0
  unfold State.unstatedCode
  rw [BitVec.toNat_ofNat]
  exact (Nat.mod_le _ _).trans_lt h

theorem readTestResult_empty {s : State} (h : s.stu.result = .empty) :
    s.readTestResult = (.answer .ok (0 :: s.emptyResult), { s with free := s.free + 5 }) := by
  unfold State.readTestResult
  rw [h]
  rfl

theorem readTestResult_running {s : State} {k : Running} (h : s.stu.result = .running k) :
    s.readTestResult = (.answer .ok [testCode k.kind, 0, 0, 0, 0, 0], s) := by
  unfold State.readTestResult
  rw [h]
  rfl

theorem readTestResult_done {s : State} {k : TestKind} {v : Verdict} {a b : Nat} (h : s.stu.result = .done k v a b) :
    s.readTestResult = (.answer .ok ([testCode k, verdictCode v] ++ wordBytes a ++ wordBytes b), resultSet s .empty) := by
  unfold State.readTestResult
  rw [h]
  rfl

/-- READ TEST RESULT is its block's reply. -/
theorem exec_readTestResult {s u : State} {p : Port} {st : Status} {body : List Byte} (q : Byte) (h : ready s p 0x54)
    (hc : (receiving s p .hunt).readTestResult = (.answer st body, u)) (hl : u.lnk = (receiving s p .hunt).lnk) :
    exec (.readTestResult p q) s = .next (repliedWork u p 0x54 q st body) :=
  congrArg _ (requestArrives_ready (r := .readTestResult) q h rfl hc hl)

/-! ### The end of a KEY CHECK (R185) -/

theorem exec_keyCheckEnd (s : State) : exec .keyCheckEnd s = .next s.endKeyCheck := rfl

theorem endKeyCheck_ends {s : State} {d t n : Nat} (h : s.stu.checkLate = false) (hr : s.stu.result = .running (.keyCheck d t n)) :
    s.endKeyCheck = testEnded s .keyCheck .pass n 0 := by
  unfold State.endKeyCheck
  rw [if_neg (Bool.eq_false_iff.1 h), hr]
  rfl

theorem endKeyCheck_without {s : State} (h : s.stu.checkLate = false) (hr : ∀ d t n, s.stu.result ≠ .running (.keyCheck d t n)) :
    s.endKeyCheck = s := by
  unfold State.endKeyCheck
  rw [if_neg (Bool.eq_false_iff.1 h)]
  split
  · rename_i d t n e
    exact absurd e (hr d t n)
  · rfl

/-- Settles O46: the record EMPTY, RUNNING and DONE, and the end of a KEY CHECK overtaken, come and without a check. -/
theorem testResultsRead : Obligations.TestResultsRead := by
  refine ⟨fun s p q h => ⟨fun hr => ?_, fun k hr => ?_, fun k v a b hr => ?_⟩, fun s => ⟨fun h => ?_, fun d t n h hr => ?_, fun h hr => ?_⟩⟩
  · refine ⟨(receiving s p .hunt).emptyResult, s.free + 5, rfl, fun v hv => ?_, ?_⟩
    · cases hv
      exact Nat.le_of_lt_succ (unstatedCode_lt _ 0 (by decide))
    · rw [exec_readTestResult q h (readTestResult_empty hr) rfl, answered_eq]
      rfl
  · rw [exec_readTestResult q h (readTestResult_running hr) rfl, answered_eq]
  · rw [exec_readTestResult q h (readTestResult_done hr) rfl, answered_eq]
    rfl
  · rw [exec_keyCheckEnd]
    exact congrArg _ (if_pos h)
  · rw [exec_keyCheckEnd, endKeyCheck_ends h hr]
  · rw [exec_keyCheckEnd, endKeyCheck_without h hr]

end Sys2Proof.Machine
end

section
/-! ENTER SERVICE, LEAVE SERVICE and LAMP TEST (O43, O44): the steps of leaving are those of R178, and speech settling after them keeps
the Self-Test Unit. -/

namespace Sys2Proof.Machine

open Sys2Proof.Claims

/-! ### Speech without an audition keeps the Self-Test Unit -/

section
variable (s : State) (p : Prompt) (k : TurnKind)

@[simp] theorem State.offer_stu (o : Port) (n : Notice) : (s.offer o n).stu = s.stu := by
  unfold State.offer
  split <;> rfl

@[simp] theorem State.unpin_stu : s.unpin.stu = s.stu := by
  unfold State.unpin
  split <;> rfl

@[simp] theorem State.clearTurn_stu : s.clearTurn.stu = s.stu := s.unpin_stu

@[simp] theorem State.endTurn_stu (o : Port) : (s.endTurn o).stu = s.stu := s.clearTurn_stu

@[simp] theorem State.relieve_stu : s.relieve.stu = s.stu := rfl

@[simp] theorem State.grantTurn_stu (t : Turn) : (s.grantTurn t).stu = s.stu := by
  cases t with
  | audition => rfl
  | prompt slot kind =>
    unfold State.grantTurn
    dsimp only
    split
    · rfl
    · unfold State.recordTurn State.repeatStopped State.startReplay
      split <;> split <;> rfl

@[simp] theorem State.grantTop_stu : s.grantTop.stu = s.stu := by
  unfold State.grantTop
  split
  · exact s.grantTurn_stu _
  · rfl

@[simp] theorem State.replayCut_stu : (s.replayCut p k).stu = s.stu := by
  unfold State.replayCut
  split <;> rfl

@[simp] theorem State.preemptTurn_stu : (s.preemptTurn p k).stu = s.stu := by
  unfold State.preemptTurn
  simp

@[simp] theorem State.spanDone_stu : (s.spanDone p k).stu = s.stu := by cases k <;> rfl

@[simp] theorem State.deliverTurn_stu : (s.deliverTurn p k).stu = s.stu := by
  unfold State.deliverTurn
  simp

@[simp] theorem State.loseTurn_stu : (s.loseTurn p k).stu = s.stu := by
  unfold State.loseTurn
  split <;> simp

@[simp] theorem State.elementEnded_stu : (s.elementEnded p k).stu = s.stu := by
  unfold State.elementEnded
  split
  · exact s.loseTurn_stu p k
  · exact s.deliverTurn_stu p k
  · split
    · exact s.preemptTurn_stu p k
    · dsimp only
      split
      · rfl
      · exact State.deliverTurn_stu _ p k

@[simp] theorem State.selfReset_stu : (s.selfReset p k).stu = s.stu := by
  unfold State.selfReset
  simp

@[simp] theorem State.faultedPhrase_stu (n : Nat) : (s.faultedPhrase p k n).stu = s.stu := by
  unfold State.faultedPhrase
  dsimp only
  split
  · simp
  · split <;> simp

end

section
variable {s t : State} {p : Prompt} {k : TurnKind}

theorem State.beginBlock_stu {f : State} {r : Resolution} {n : Nat} (hf : f.stu = s.stu) (h : s.beginBlock r n f = some t) :
    t.stu = s.stu := by
  simp only [State.beginBlock] at h
  split at h
  · split at h
    · cases h
    · cases h; rfl
  · split at h
    · cases h
    · split at h
      · cases h; exact hf
      · cases h; rfl

theorem State.notePreemption_stu (h : s.notePreemption p = some t) : t.stu = s.stu := by
  unfold State.notePreemption at h
  split at h
  · cases h
  · split at h
    · cases h; rfl
    · split at h <;> cases h
      rfl

theorem State.promptElement_stu {e : ElementInPlay} (h : s.promptElement p k e = some t) : t.stu = s.stu := by
  unfold State.promptElement at h
  split at h
  · cases h
  · cases h
  · cases h; simp
  · split at h <;> cases h <;> simp
  · split at h
    · cases h; rfl
    · exact State.beginBlock_stu (s.faultedPhrase_stu p k _) h

theorem State.promptStep_stu (h : s.promptStep p k = some t) : t.stu = s.stu := by
  unfold State.promptStep at h
  split at h
  · rename_i u hu
    cases h
    exact State.notePreemption_stu hu
  · split at h
    · split at h
      · cases h; simp
      · split at h <;> cases h
        · rfl
        · simp
    · split at h
      · cases h; simp
      · exact State.promptElement_stu h

/-- A small step where no audition stands: a turn that names one is cleared. -/
theorem State.speechStep_stu (ha : s.stu.audition = none) (h : s.speechStep = some t) : t.stu = s.stu := by
  unfold State.speechStep at h
  split at h
  · cases h; rfl
  · split at h
    · obtain ⟨x, -, rfl⟩ := Option.map_eq_some_iff.1 h
      exact s.grantTurn_stu x
    · cases h
    · cases h
    · split at h
      · unfold State.auditionStep at h
        rw [ha] at h
        cases h
        exact s.clearTurn_stu
      · split at h
        · exact State.promptStep_stu h
        · cases h; exact s.clearTurn_stu
      · cases h; exact s.clearTurn_stu

end

theorem State.settleSteps_stu : ∀ (n : Nat) {s : State}, s.stu.audition = none → (State.settleSteps n s).stu = s.stu
  | 0, _, _ => rfl
  | n + 1, s, ha => by
    unfold State.settleSteps
    split
    · rename_i t ht
      have h := State.speechStep_stu ha ht
      exact (State.settleSteps_stu n (by rwa [h])).trans h
    · rfl

/-- Speech settling neither starts an audition nor touches service mode and self-test record where no audition stands. -/
theorem State.settle_stu {s : State} (ha : s.stu.audition = none) : s.settle.stu = s.stu := State.settleSteps_stu _ ha

/-! ### The steps of leaving service mode (R178) -/

/-- A running test that stops, before its result: its store read is marked to be discarded, and an end that falls together with that is
noted as overtaken. -/
def testStopped (s : State) (k : Running) : State :=
  { s with
    stu := { s.stu with checkLate := s.stu.checkLate || checkEnded k }
    psc := { s.psc with transfer := match s.psc.transfer with
      | some (.test page slot _) => some (.test page slot true)
      | x => x } }

theorem checkEnded_eq (k : Running) : checkEnded k = k.ended := by cases k <;> rfl

theorem testStopped_eq (s : State) (k : Running) : testStopped s k = (s.overtakeCheck k).dropTestRead := by
  unfold testStopped State.dropTestRead
  rw [checkEnded_eq]
  split
  · rename_i page slot d h
    rw [show (s.overtakeCheck k).psc.transfer = some (.test page slot d) from h]
    rfl
  · rename_i h
    split
    · rename_i h'
      exact absurd h' (h _ _ _)
    · rfl

theorem testAborted_running {s : State} {k : Running} (h : s.stu.result = .running k) :
    testAborted s = testEnded (testStopped s k) k.kind .aborted 0 0 := by
  unfold testAborted
  rw [h]
  rfl

theorem testAborted_without {s : State} (h : ∀ k, s.stu.result ≠ .running k) : testAborted s = s := by
  unfold testAborted
  split
  · rename_i k e
    exact absurd e (h k)
  · rfl
  · rfl

theorem testAborted_eq (s : State) : testAborted s = s.abortTest := by
  by_cases h : ∃ k, s.stu.result = .running k
  · obtain ⟨k, h⟩ := h
    rw [testAborted_running h, testStopped_eq]
    unfold State.abortTest
    rw [h]
    rfl
  · rw [testAborted_without (not_exists.1 h)]
    unfold State.abortTest
    split
    · rename_i k e
      exact absurd ⟨k, e⟩ h
    · rfl
    · rfl

theorem auditionAborted_eq (s : State) : auditionAborted s = s.abortAudition := by
  unfold auditionAborted State.abortAudition
  rw [auditionOver_eq]
  cases s.stu.audition <;> rfl

@[simp] theorem State.offerRoom_stu (s : State) (n : Notice) : (s.offerRoom n).stu = s.stu := by
  unfold State.offerRoom
  split
  · exact s.offer_stu _ n
  · rfl

theorem audition_abortAudition (s : State) : s.abortAudition.stu.audition = none := by
  unfold State.abortAudition
  split
  · assumption
  · split
    · unfold State.endAudition
      rw [State.offerRoom_stu]
    · rw [State.offerRoom_stu]

/-- Steps 3 and 4 of R178: the display overrides and the flag are cleared. -/
def serviceCleared (s : State) : State :=
  { s with dsp := { s.dsp with lampTest := false, blank := false }, stu := { s.stu with flag := false } }

theorem serviceGone_eq (s : State) : serviceGone s = serviceCleared s.abortTest.abortAudition := by
  unfold serviceGone
  rw [testAborted_eq, auditionAborted_eq]
  rfl

theorem leaveService_within {s : State} (h : s.stu.flag = true) : s.leaveService = (serviceGone s).settle := by
  rw [serviceGone_eq]
  exact if_pos h

theorem leaveService_without {s : State} (h : s.stu.flag = false) : s.leaveService = s :=
  if_neg (Bool.eq_false_iff.1 h)

theorem audition_serviceGone (s : State) : (serviceGone s).stu.audition = none := by
  rw [serviceGone_eq]
  exact audition_abortAudition _

/-- Clearing overrides and flag keeps what is presentation. -/
theorem Presents.serviceCleared {s t : State} (h : Presents s t) : Presents (serviceCleared s) (serviceCleared t) :=
  { h with
    display := congrArg (fun d : Display => { d with lampTest := false, blank := false }) h.display
    flag := rfl }

/-- The state with no audition standing. -/
def withoutAudition (s : State) : State := { s with stu := { s.stu with audition := none } }

theorem Presents.withoutAudition (s : State) : Presents (withoutAudition s) s := .of_audition _ s.stu.audition

/-! What `serviceLeft` says of the self-test record, by its two cases. -/

theorem serviceLeft_running {s : State} {k : Running} (h : s.stu.result = .running k) :
    serviceLeft s = withoutAudition (serviceCleared (resultSet (testStopped s k) (.done k.kind .aborted 0 0))) := by
  unfold serviceLeft testStopped
  rw [h]
  cases s.psc.transfer with
  | none => rfl
  | some x => cases x <;> rfl

theorem serviceLeft_without {s : State} (h : ∀ k, s.stu.result ≠ .running k) :
    serviceLeft s = withoutAudition (serviceCleared s) := by
  cases hr : s.stu.result with
  | running k => exact absurd hr (h k)
  | empty => simp only [serviceLeft, withoutAudition, serviceCleared, hr]
  | done k v a b => simp only [serviceLeft, withoutAudition, serviceCleared, hr]

/-- Beside the test's result and the flags, leaving service mode is presentation. -/
theorem serviceLeft_presents (s : State) : Presents (serviceLeft s) (serviceGone s) := by
  have hb : Presents (serviceLeft s) (serviceCleared (testAborted s)) := by
    by_cases h : ∃ k, s.stu.result = .running k
    · obtain ⟨k, h⟩ := h
      rw [serviceLeft_running h, testAborted_running h]
      exact (Presents.withoutAudition _).trans (Presents.offerRoom (resultSet _ _) _).serviceCleared
    · rw [serviceLeft_without (not_exists.1 h), testAborted_without (not_exists.1 h)]
      exact .withoutAudition _
  rw [serviceGone_eq, ← testAborted_eq]
  exact hb.trans (Presents.abortAudition _).serviceCleared

theorem serviceLeft_presents_settled (s : State) : Presents (serviceLeft s) (serviceGone s).settle :=
  (serviceLeft_presents s).trans (.settle _)

/-! ### What the ROOM port is told (R178, R180, R181) -/

theorem portOf_of_lnk {s t : State} (h : t.lnk = s.lnk) (r : Role) : t.portOf r = s.portOf r :=
  State.portOf_congr (fun p => by unfold State.link; rw [h]) r

theorem lnk_testAborted (s : State) : (testAborted s).lnk = s.lnk := by
  by_cases h : ∃ k, s.stu.result = .running k
  · obtain ⟨k, h⟩ := h
    rw [testAborted_running h]
    exact (Presents.offerRoom _ _).lnk
  · rw [testAborted_without (not_exists.1 h)]

theorem audition_testAborted (s : State) : (testAborted s).stu.audition = s.stu.audition := by
  by_cases h : ∃ k, s.stu.result = .running k
  · obtain ⟨k, h⟩ := h
    rw [testAborted_running h]
    unfold testEnded
    rw [State.offerRoom_stu]
    rfl
  · rw [testAborted_without (not_exists.1 h)]

theorem noticesOf_testAborted {s : State} {k : Running} (h : s.stu.result = .running k) {r : Port} (hr : s.portOf .room = some r) :
    noticesOf (testAborted s) r = queueAfter (noticesOf s r) ⟨.testDone, none, none, testCode k.kind, 3, false⟩ := by
  have hp : (resultSet (testStopped s k) (.done k.kind .aborted 0 0)).portOf .room = some r := (portOf_of_lnk rfl _).trans hr
  rw [testAborted_running h]
  exact noticesOf_offerRoom hp _

/-- What steps 1 and 2 told stands in front of what the channel's next turns tell. -/
theorem noticesOf_leaving (s : State) (r : Port) :
    noticesOf (testAborted s) r <+: noticesOf (serviceGone s).settle r ∧
      (s.stu.audition ≠ none → s.portOf .room = some r →
        queueAfter (noticesOf (testAborted s) r) abortNotice <+: noticesOf (serviceGone s).settle r) := by
  have hs : noticesOf (testAborted s).abortAudition r <+: noticesOf (serviceGone s).settle r := by
    rw [serviceGone_eq, ← testAborted_eq]
    exact (Presents.settle (serviceCleared (testAborted s).abortAudition)).notices r
  refine ⟨((Presents.abortAudition (testAborted s)).notices r).trans hs, fun ha hr => ?_⟩
  rw [← noticesOf_abortAudition (by rwa [audition_testAborted]) ((portOf_of_lnk (lnk_testAborted s) _).trans hr)]
  exact hs

/-! ### The requests -/

/-- ENTER SERVICE sets the flag. -/
theorem exec_enterService {s : State} {p : Port} (q : Byte) (h : ready s p 0x50) :
    exec (.enterService p q) s = .next (answered { s with stu := { s.stu with flag := true } } p 0x50 q .ok []) := by
  rw [answered_eq]
  exact congrArg _ (requestArrives_ready (r := .enterService) (u := (receiving s p .hunt).enterService) q h rfl rfl rfl)

theorem exec_leaveService_without {s : State} {p : Port} (q : Byte) (h : ready s p 0x51) (hf : s.stu.flag = false) :
    exec (.leaveService p q) s = .next (answered s p 0x51 q .ok []) :=
  congrArg _ (requestArrives_unchanged (r := .leaveService) q h rfl
    (congrArg (Prod.mk _) (leaveService_without (s := receiving s p .hunt) hf)))

/-- LEAVE SERVICE is answered once speech has settled. -/
theorem exec_leaveService_within {s : State} {p : Port} (q : Byte) (h : ready s p 0x51) (hf : s.stu.flag = true) :
    exec (.leaveService p q) s = .next (repliedWork (serviceGone (receiving s p .hunt)).settle p 0x51 q .ok []) :=
  congrArg _ (requestArrives_ready (r := .leaveService) q h rfl
    (congrArg (Prod.mk _) (leaveService_within (s := receiving s p .hunt) hf)) (serviceLeft_presents_settled (receiving s p .hunt)).lnk)

/-- Settles O43: the flag set, left where it is clear, and left in service mode, with the notices of steps 1 and 2 in their order. -/
theorem serviceModeChanged : Obligations.ServiceModeChanged := by
  refine fun s p q => ⟨exec_enterService q, fun h => ⟨exec_leaveService_without q h, fun hf => ?_⟩⟩
  refine ⟨_, exec_leaveService_within q h hf, ?_, rfl, ?_, fun r hr => ?_⟩
  · rw [answered_eq]
    exact (serviceLeft_presents_settled (receiving s p .hunt)).repliedWork ..
  · have ha := audition_serviceGone (receiving s p .hunt)
    exact (congrArg Service.audition (State.settle_stu ha)).trans ha
  · have hr' : (receiving s p .hunt).portOf .room = some r := (portOf_receiving s p .room).trans hr
    obtain ⟨htest, haudition⟩ := noticesOf_leaving (receiving s p .hunt) r
    refine ⟨fun k hk => ?_, fun hk ha => ?_, fun k hk ha => ?_⟩
    · rw [noticesOf_testAborted (s := receiving s p .hunt) hk hr'] at htest
      exact htest
    · have h := haudition ha hr'
      rw [testAborted_without (s := receiving s p .hunt) hk] at h
      exact h
    · have h := haudition ha hr'
      rw [noticesOf_testAborted (s := receiving s p .hunt) hk hr'] at h
      exact h

/-! ### LAMP TEST (R179) -/

/-- A byte in the range of a flag carries the flag. -/
theorem boolOf_flag {b : Byte} (h : b.toNat ≤ 1) : boolOf b = some (decide (b = 1)) := by
  obtain ⟨v, hv⟩ := (boolOf_isSome_iff b).2 h
  rw [hv, ← boolCode_of_boolOf hv]
  cases v <;> rfl

theorem lampTest_ok (s : State) {lamp blank : Byte} (hl : lamp.toNat ≤ 1) (hb : blank.toNat ≤ 1) : s.lampTest lamp blank =
    (.answer .ok [], { s with dsp := { s.dsp with lampTest := decide (lamp = 1), blank := decide (blank = 1) } }) := by
  unfold State.lampTest
  rw [boolOf_flag hl, boolOf_flag hb]

theorem lampTest_badField (s : State) {lamp blank : Byte} (h : 1 < lamp.toNat ∨ 1 < blank.toNat) :
    s.lampTest lamp blank = (.answer .badField [], s) := by
  unfold State.lampTest
  rcases h with h | h
  · rw [boolOf_eq_none h]
  · rw [boolOf_eq_none h]
    cases boolOf lamp <;> rfl

/-- Settles O44: speech settling leaves the overrides that leaving has cleared, and the request sets or refuses both. -/
theorem lampTestSet : Obligations.LampTestSet := by
  refine ⟨fun s p q h hf => ?_, fun s p q lamp blank h => ⟨fun hb => ?_, fun hl hb => ?_⟩⟩
  · have hd : (serviceGone (receiving s p .hunt)).settle.dsp = (serviceGone (receiving s p .hunt)).dsp := (SpeechAlone.settle _).dsp
    exact ⟨_, exec_leaveService_within q h hf, congrArg Display.lampTest hd, congrArg Display.blank hd⟩
  · exact congrArg _ (requestArrives_unchanged (r := .lampTest lamp blank) q h rfl (lampTest_badField _ hb))
  · rw [answered_eq]
    exact congrArg _ (requestArrives_ready (r := .lampTest lamp blank) q h rfl (lampTest_ok _ hl hb) rfl)

end Sys2Proof.Machine
end

section
/-! SELF TEST and the starts of its four tests (O45). -/

namespace Sys2Proof.Machine

open Sys2Proof.Claims

/-! ### Requests of SELF TEST -/

/-- A result looks at the roles of the links alone, so it may be recorded before or after the receiver moves. -/
theorem testEnded_receiving (s : State) (p : Port) (k : TestKind) (v : Verdict) (a b : Nat) :
    testEnded (receiving s p .hunt) k v a b = receiving (testEnded s k v a b) p .hunt :=
  State.offerRoom_onLink (resultSet s (.done k v a b)) p (fun l => heard l .hunt) (fun _ => rfl) _

/-- A record that is not EMPTY refuses every test. -/
theorem selfTest_pending {s : State} (h : s.stu.result ≠ .empty) (n : Byte) (a b : Word16) :
    s.selfTest n a b = (.answer .testResultPending [], s) := by
  unfold State.selfTest
  cases hr : s.stu.result with
  | empty => exact absurd hr h
  | running k => rfl
  | done k v x y => rfl

section
variable {s : State} (h : s.stu.result = .empty) (a b : Word16)
include h

theorem selfTest_storeSum : s.selfTest 1 a b = s.startStoreSum a.toNat b.toNat := by
  unfold State.selfTest
  rw [h]
  rfl

theorem selfTest_speechCheck : s.selfTest 2 a b = s.startSpeechCheck a.toNat b.toNat := by
  unfold State.selfTest
  rw [h]
  rfl

theorem selfTest_directoryCheck : s.selfTest 3 a b = s.directoryCheck := by
  unfold State.selfTest
  rw [h]
  rfl

theorem selfTest_keyCheck : s.selfTest 4 a b = s.startKeyCheck a.toNat := by
  unfold State.selfTest
  rw [h]
  rfl

end

section
variable {s : State} {p : Port} {q n : Byte} {a b : Word16} {c : Instr} (hc : requestOf c = some (p, q, .selfTest n a b))
  (h : ready s p 0x53)
include hc h

/-- A test request that its unit answers without changing anything. -/
theorem exec_selfTest_refused {st : Status}
    (ht : (receiving s p .hunt).selfTest n a b = (.answer st [], receiving s p .hunt)) :
    exec c s = .next (answered s p 0x53 q st []) := by
  rw [exec_requestOf hc]
  exact congrArg _ (requestArrives_unchanged (r := .selfTest n a b) q h rfl ht)

/-- A test that is done at once (R183, R184). -/
theorem exec_selfTest_done {k : TestKind} {v : Verdict} {x y : Nat}
    (ht : (receiving s p .hunt).selfTest n a b = (.answer .ok [], testEnded (receiving s p .hunt) k v x y)) :
    exec c s = .next (answered (testEnded s k v x y) p 0x53 q .ok []) := by
  rw [exec_requestOf hc, answered_eq, ← testEnded_receiving]
  exact congrArg _ (requestArrives_ready (r := .selfTest n a b) q h rfl ht (Presents.offerRoom _ _).lnk)

/-- A test that runs once its request is answered (R185). -/
theorem exec_selfTest_runs {k : Running} (ht : (receiving s p .hunt).selfTest n a b =
    (.answer .ok [], (receiving s p .hunt).setRunning k)) : exec c s = .next (answered (resultSet s (.running k)) p 0x53 q .ok []) := by
  rw [exec_requestOf hc, answered_eq]
  exact congrArg _ (requestArrives_ready (r := .selfTest n a b) q h rfl ht rfl)

end

/-! ### The four tests (R182 to R185) -/

/-- SPEECH CHECK of an absent entry fails at once (R183). -/
theorem startSpeechCheck_absent {s : State} {m : Nat} {l : Fin 4} (hm : m ≤ 254) (hp : (s.entry m l).present = false) :
    s.startSpeechCheck m l.val = (.answer .ok [], testEnded s .speechCheck .fail 0 0) := by
  have he : s.resolveExact m l = none := if_neg (Bool.eq_false_iff.1 hp)
  unfold State.startSpeechCheck
  rw [dif_pos ⟨l.isLt, hm⟩, he]
  rfl

/-- SPEECH CHECK of an entry without blocks passes at once (R183). -/
theorem startSpeechCheck_blockless {s : State} {m : Nat} {l : Fin 4} (hm : m ≤ 254) (hp : (s.entry m l).present = true)
    (hn : (s.entry m l).blocks = 0) :
    s.startSpeechCheck m l.val = (.answer .ok [], testEnded s .speechCheck .pass 0 0) := by
  have he : s.resolveExact m l = some ⟨m, l, (s.entry m l).first, (s.entry m l).blocks, (s.entry m l).text⟩ := if_pos hp
  unfold State.startSpeechCheck
  rw [dif_pos ⟨l.isLt, hm⟩, he]
  exact if_pos hn

section
variable {s : State} {p : Port} {q : Byte} {a b : Word16} (h : ready s p 0x53) (hr : s.stu.result = .empty)
include h hr

/-- STORE SUM runs with its request in work, or its pages are out of range (R182). -/
theorem exec_storeSum : exec (.storeSum p q a b) s = .next
    (if a.toNat ≤ b.toNat ∧ b.toNat ≤ 511 then
      inWorkWith (resultSet s (.running (.storeSum a.toNat b.toNat 0 0))) p 0x53 q .testStart
    else answered s p 0x53 q .badField []) := by
  split
  · rename_i hab
    obtain ⟨hi, hw, -, hc⟩ := h
    exact storeSum_waits q hi hw hc hr hab.1 hab.2
  · rename_i hab
    refine exec_selfTest_refused (n := 1) rfl h ((selfTest_storeSum (s := receiving s p .hunt) hr a b).trans (if_neg ?_))
    exact fun ⟨hb, ha⟩ => hab ⟨ha, Nat.le_of_lt_succ hb⟩

/-- SPEECH CHECK of a phrase or language out of range (R183). -/
theorem exec_speechCheck_badField (hab : 254 < a.toNat ∨ 3 < b.toNat) :
    exec (.speechCheck p q a b) s = .next (answered s p 0x53 q .badField []) := by
  refine exec_selfTest_refused (n := 2) rfl h ((selfTest_speechCheck (s := receiving s p .hunt) hr a b).trans (dif_neg ?_))
  rintro ⟨hb, ha⟩
  unfold lastPhrase at ha
  omega

/-- SPEECH CHECK of an absent entry fails at once, of one without blocks passes at once, and else runs with its request in work (R183). -/
theorem exec_speechCheck {l : Fin 4} (ha : a.toNat ≤ 254) (hb : b.toNat = l.val) : exec (.speechCheck p q a b) s = .next
    (if (s.entry a.toNat l).present = false then answered (testEnded s .speechCheck .fail 0 0) p 0x53 q .ok []
    else if (s.entry a.toNat l).blocks = 0 then answered (testEnded s .speechCheck .pass 0 0) p 0x53 q .ok []
    else inWorkWith (resultSet s (.running (.speechCheck
      ⟨a.toNat, l, (s.entry a.toNat l).first, (s.entry a.toNat l).blocks, (s.entry a.toNat l).text⟩ 0 0))) p 0x53 q .testStart) := by
  have hs := selfTest_speechCheck (s := receiving s p .hunt) hr a b
  rw [hb] at hs
  by_cases hp : (s.entry a.toNat l).present = false
  · rw [if_pos hp]
    exact exec_selfTest_done (n := 2) rfl h (hs.trans (startSpeechCheck_absent ha hp))
  · have hp' : (s.entry a.toNat l).present = true := Bool.eq_true_of_not_eq_false hp
    rw [if_neg hp]
    by_cases hn : (s.entry a.toNat l).blocks = 0
    · rw [if_pos hn]
      exact exec_selfTest_done (n := 2) rfl h (hs.trans (startSpeechCheck_blockless ha hp' hn))
    · obtain ⟨hi, hw, -, hc⟩ := h
      rw [if_neg hn]
      exact speechCheck_waits q hi hw hc hr ha hb hp' hn

/-- DIRECTORY CHECK counts wrapping and vacant entries at once (R184). -/
theorem exec_directoryCheck {m n : Nat} (hm : m = s.psc.directory.countP fun x => wraps x.2)
    (hn : n = s.psc.directory.countP fun x => vacant x.2) : exec (.directoryCheck p q a b) s = .next
      (answered (testEnded s .directoryCheck (if m = 0 ∧ n = 0 then .pass else .fail) m n) p 0x53 q .ok []) := by
  subst hm hn
  exact exec_selfTest_done (n := 3) rfl h (selfTest_directoryCheck (s := receiving s p .hunt) hr a b)

/-- KEY CHECK runs for 1 to 60 s, or its duration is out of range (R185). -/
theorem exec_keyCheck : exec (.keyCheck p q a b) s = .next
    (if 1 ≤ a.toNat ∧ a.toNat ≤ 60 then answered (resultSet s (.running (.keyCheck (100 * a.toNat) 0 0))) p 0x53 q .ok []
    else answered s p 0x53 q .badField []) := by
  have hs := selfTest_keyCheck (s := receiving s p .hunt) hr a b
  split
  · rename_i ha
    rw [Nat.mul_comm]
    exact exec_selfTest_runs (n := 4) rfl h (hs.trans (if_pos ha))
  · rename_i ha
    exact exec_selfTest_refused (n := 4) rfl h (hs.trans (if_neg ha))

end

/-- Settles O45: the refusal of a record that is not EMPTY, then each of the four tests. -/
theorem selfTestsStarted : Obligations.SelfTestsStarted := by
  refine fun s p q a b h => ⟨fun c hc hr => ?_, fun hr => ⟨exec_storeSum h hr, exec_speechCheck_badField h hr,
    fun l => exec_speechCheck h hr, fun m n => exec_directoryCheck h hr, exec_keyCheck h hr⟩⟩
  have hp := selfTest_pending (s := receiving s p .hunt) hr
  obtain rfl | rfl | rfl | rfl := hc
  · exact exec_selfTest_refused rfl h (hp 1 a b)
  · exact exec_selfTest_refused rfl h (hp 2 a b)
  · exact exec_selfTest_refused rfl h (hp 3 a b)
  · exact exec_selfTest_refused rfl h (hp 4 a b)

end Sys2Proof.Machine
end

section
/-! A step takes the command at the front of the queue (O1). Changes that leave the queue alone and keep the canonical form of the store and
of the tables: the writes of one table and the resets keep it, and sessions, prompts, holds, keys and timers do not touch a table. -/

namespace Sys2Proof.Machine

open Sys2Proof.Claims

/-- Settles O1: the step by the contents of the queue. -/
theorem stepTakesFrontCommand : Obligations.StepTakesFrontCommand := by
  intro c rest s h
  unfold step
  rw [h]

/-! ### Changes that leave the queue alone and keep the canonical forms -/

/-- The queue, the store and the tables held as sparse lists. -/
structure StoreView where
  pending : List Instr
  memory : Memory
  directory : Directory
  patterns : List (Nat × List Note)
  font : List (Nat × List Byte)

/-- That part of a state. -/
def State.storeView (s : State) : StoreView := ⟨s.pending, s.psc.memory, s.psc.directory, s.tgn.patterns, s.dsp.font⟩

/-- The queue stays, and the store and the tables keep their canonical forms (logs 30 and 31). -/
structure StoreKept (s t : State) : Prop where
  pending : t.pending = s.pending
  canonical : storeCanonical s → storeCanonical t

/-- A change elsewhere in the state. -/
theorem StoreKept.other {s t : State} (h : t.storeView = s.storeView) : StoreKept s t := by
  unfold State.storeView at h
  simp only [StoreView.mk.injEq] at h
  obtain ⟨hq, hm, hd, hp, hf⟩ := h
  exact ⟨hq, fun hs => by unfold storeCanonical at *; rwa [hm, hd, hp, hf]⟩

theorem StoreKept.refl (s : State) : StoreKept s s := .other rfl

theorem StoreKept.trans {s t u : State} (h : StoreKept s t) (k : StoreKept t u) : StoreKept s u :=
  ⟨k.pending.trans h.pending, fun hs => k.canonical (h.canonical hs)⟩

/-- What is done after a change elsewhere in the state. -/
theorem StoreKept.after {s t u : State} (k : StoreKept t u) (h : t.storeView = s.storeView) : StoreKept s u :=
  (StoreKept.other h).trans k

/-- Presentation leaves the queue, the store and the tables. -/
theorem StoreKept.presents {s t : State} (h : Presents s t) : StoreKept s t := by
  refine .other ?_
  unfold State.storeView
  rw [h.pending, h.memory, h.directory, h.patterns, (congrArg Display.font h.display :)]

theorem StoreKept.foldl {α : Type} {f : State → α → State} (h : ∀ s a, StoreKept s (f s a)) :
    ∀ (l : List α) (s : State), StoreKept s (l.foldl f s)
  | [], s => .refl s
  | a :: l, s => (h s a).trans (StoreKept.foldl h l (f s a))

/-! ### Tables written (R91, R98, R104, R138, R148) -/

theorem StoreKept.performWrite (s : State) (g o : Nat) (d : List Byte) : StoreKept s (s.performWrite g o d) :=
  ⟨rfl, fun ⟨hm, hd, hp, hf⟩ => ⟨Memory.wf_writeBytes g d _ o hm, hd, hp, hf⟩⟩

theorem StoreKept.setEntry (s : State) (n : Nat) (l : Fin 4) (e : DirEntry) : StoreKept s (s.setEntry n l e) :=
  ⟨rfl, fun ⟨hm, hd, hp, hf⟩ => ⟨hm, mapWf_mapPut _ _ _ e hd, hp, hf⟩⟩

theorem StoreKept.setPattern (s : State) (n : Nat) (l : List Note) : StoreKept s (s.setPattern n l) :=
  ⟨rfl, fun ⟨hm, hd, hp, hf⟩ => ⟨hm, hd, mapWf_mapPut _ _ n l hp, hf⟩⟩

theorem StoreKept.putGlyph (s : State) (n : Nat) (rows : List Byte) :
    StoreKept s { s with dsp := { s.dsp with font := mapPut darkGlyph s.dsp.font n rows } } :=
  ⟨rfl, fun ⟨hm, hd, hp, hf⟩ => ⟨hm, hd, hp, mapWf_mapPut _ _ n rows hf⟩⟩

/-- The tables of a power-on reset are empty or built in (R116, R138). -/
theorem StoreKept.powerOnReset (s : State) : StoreKept s (.wholeReset Config.ignorePowerOn [] [] ToneGenerator.builtinPatterns []
    Display.identityMap (s.ksc.sides.mapAll unseenSide) s.pending s.free) := ⟨rfl, fun _ => reset_storeCanonical⟩

/-- An external reset keeps the tables, and the write it cuts keeps the store's form (R116, R117). -/
theorem StoreKept.externalReset (s : State) : StoreKept s (.wholeReset Config.ignoreExternal s.cutStore.1 s.psc.directory
    s.tgn.patterns s.dsp.font s.dsp.map (s.ksc.sides.mapAll unseenSide) s.pending s.cutStore.2) :=
  ⟨rfl, fun ⟨hm, hd, hp, hf⟩ => ⟨wf_cutStore hm, hd, hp, hf⟩⟩

/-! ### Sessions and the panel's power (R54 to R61, R152) -/

theorem StoreKept.sideActive (s : State) : StoreKept s s.sideActive := by
  unfold State.sideActive
  split
  · exact .other rfl
  · exact .after (.presents ((Presents.startRender _ .lower).trans (.startRender _ .upper))) rfl
  all_goals exact .refl s

theorem StoreKept.sideAsleep (s : State) : StoreKept s s.sideAsleep := by
  unfold State.sideAsleep
  split
  · split <;> exact .other rfl
  all_goals exact .refl s

theorem StoreKept.beginSession (s : State) (sd : Side) : StoreKept s (s.beginSession sd) := by
  unfold State.beginSession
  exact .after ((StoreKept.presents (.offerMasked _ _)).trans (.sideActive _)) rfl

theorem StoreKept.sessionEvent (s : State) (sd : Side) : StoreKept s (s.sessionEvent sd) := by
  unfold State.sessionEvent
  split
  · exact .other rfl
  · exact .beginSession s sd

theorem StoreKept.wakeForPrompt (s : State) (sd : Side) : StoreKept s (s.wakeForPrompt sd) := by
  unfold State.wakeForPrompt
  split
  · exact .refl s
  · exact .beginSession s sd

theorem StoreKept.putLanguage (s : State) (sd : Side) (l : Fin 4) : StoreKept s (s.putLanguage sd l) := by
  unfold State.putLanguage
  split
  · exact .refl s
  · exact .after (.presents (.languageChanged _ sd)) rfl

theorem StoreKept.putMode (s : State) (sd : Side) (m : SpeechMode) : StoreKept s (s.putMode sd m) := by
  by_cases e : (s.records sd).session.mode = m
  · unfold State.putMode State.modeOf
    rw [if_pos e]
    exact .refl s
  · rw [State.putMode_eq e]
    exact .after (.presents (.modeSet s sd m)) rfl

/-! ### Closures (R24, R25) -/

theorem StoreKept.removePrompt (s : State) (p : Prompt) : StoreKept s (s.removePrompt p) :=
  .after ((StoreKept.presents (.beforeRemoval s p)).trans (.other rfl)) rfl

theorem StoreKept.closeNoChoice (s : State) (p : Prompt) (o : Closing) : StoreKept s (s.closeNoChoice p o) :=
  (StoreKept.removePrompt s p).trans (.presents (.offer _ _ _))

theorem StoreKept.closePrompt (s : State) (n : Nat) (o : Closing) : StoreKept s (s.closePrompt n o) := by
  unfold State.closePrompt
  split
  · exact .refl s
  · rename_i p _
    exact (StoreKept.closeNoChoice s p o).trans (.presents ((Presents.chooseRegion _ p.side).trans (.settle _)))

theorem StoreKept.removeOwned (s : State) (p : Port) : StoreKept s (s.removeOwned p) :=
  (StoreKept.foldl StoreKept.removePrompt _ s).trans (.presents (.afterRemovals _ _))

/-- A session's end: closures, the house values, the panel, and presentation (R57). -/
theorem StoreKept.endSession (s : State) (sd : Side) (cause : EndCause) : StoreKept s (s.endSession sd cause) := by
  unfold State.endSession
  dsimp only
  generalize hu : (State.sessionPrompts _ sd).foldl _ _ = u
  have hs : StoreKept s u := by
    rw [← hu]
    exact .after (.foldl (fun s n => .closePrompt s n .unanswered) _ _) rfl
  refine hs.trans (.after (t := u.onSession sd (houseSession u.cfg)) ?_ rfl)
  refine ((StoreKept.presents (.offerMasked _ (endedNotice sd cause))).trans (.sideAsleep _)).trans (.presents ?_)
  refine Presents.trans ?_ ((Presents.softMode _ sd _).trans (.settle _))
  split
  · exact .languageChanged _ sd
  · exact .refl _

/-! ### Holds and cycle records (R65 to R74) -/

theorem StoreKept.freeHold (s : State) (sd : Side) : StoreKept s (s.freeHold sd) := .after (.presents (.holderChanged _ sd)) rfl

theorem StoreKept.freeHeld (s : State) (p : Port) (sd : Side) : StoreKept s (s.freeHeld p sd) := by
  unfold State.freeHeld
  split
  · exact (StoreKept.freeHold s sd).trans (.presents (.afterFreed _))
  · exact .refl s

theorem StoreKept.lapseOut (s : State) (sd : Side) : StoreKept s (s.lapseOut sd) := by
  unfold State.lapseOut
  split
  · exact .other rfl
  · split
    · split
      · exact .refl s
      · exact .after (.presents ((Presents.offer _ _ _).trans (.holderChanged _ sd))) rfl
    · exact .refl s

theorem StoreKept.putCycle (s : State) (sd : Side) (c : Cycle) (l : List Port) : StoreKept s (s.putCycle sd c l) :=
  .after (.presents (.cycleFollowed s sd c l)) rfl

theorem StoreKept.secondOut (s : State) (sd : Side) : StoreKept s (s.secondOut sd) := by
  unfold State.secondOut
  split
  · exact .other rfl
  · split
    · unfold State.fallCountdown
      refine .after (t := s.onCycle sd fun _ => (s.records sd).cycle.fallen) (.presents (Presents.trans ?_ (.countdownChanged _ sd))) rfl
      split
      · exact .offerMasked _ _
      · exact .refl _
    · exact .refl s

/-! ### Tests and service mode (R178 to R185) -/

theorem StoreKept.finishTest (s : State) (k : TestKind) (v : Verdict) (a b : Nat) : StoreKept s (s.finishTest k v a b) :=
  .after (.presents (.offerRoom _ _)) rfl

theorem StoreKept.dropTestRead (s : State) : StoreKept s s.dropTestRead := by
  unfold State.dropTestRead
  split <;> exact .other rfl

theorem StoreKept.abortTest (s : State) : StoreKept s s.abortTest := by
  unfold State.abortTest
  split
  · exact .after ((StoreKept.dropTestRead _).trans (.finishTest _ _ _ _ _)) rfl
  all_goals exact .refl s

theorem StoreKept.leaveService (s : State) : StoreKept s s.leaveService := by
  unfold State.leaveService
  split
  · exact ((StoreKept.abortTest s).trans (.presents (.abortAudition _))).trans (.after (.presents (.settle _)) rfl)
  · exact .refl s

/-! ### Client reset and roles (R164 to R166) -/

theorem StoreKept.roomLeaves (s : State) (p : Port) : StoreKept s (s.roomLeaves p) := by
  unfold State.roomLeaves
  split
  · exact .leaveService s
  · exact .refl s

theorem StoreKept.drumCycleReset (s : State) (p : Port) : StoreKept s (s.drumCycleReset p) := by
  unfold State.drumCycleReset
  split
  · exact .putCycle s _ _ _
  · exact .refl s

theorem StoreKept.emptyQueue (s : State) (p : Port) : StoreKept s (s.emptyQueue p) := .other rfl

theorem StoreKept.clientReset (s : State) (p : Port) : StoreKept s (s.clientReset p) :=
  .after (t := s.resetPortStore p) (((((StoreKept.removeOwned _ p).trans (.freeHeld _ p .lower)).trans (.freeHeld _ p .upper)).trans
    (.roomLeaves _ p)).trans ((StoreKept.emptyQueue _ p).trans (.drumCycleReset _ p))) rfl

theorem StoreKept.drumUnbound (s : State) (r : Role) : StoreKept s (s.drumUnbound r) := by
  unfold State.drumUnbound
  split
  · exact .presents (.startUnbound s _)
  · exact .refl s

theorem StoreKept.unbindRole (s : State) (p : Port) : StoreKept s (s.unbindRole p) := by
  have h : StoreKept s ((s.clientReset p).onLink p fun l => { l with role := none }) := (StoreKept.clientReset s p).trans (.other rfl)
  unfold State.unbindRole
  dsimp only
  split
  · exact h.trans (.drumUnbound _ _)
  · exact h

theorem StoreKept.bind (s : State) (p : Port) (r : Role) : StoreKept s (s.bind p r) := by
  unfold State.bind State.drumBound
  split
  · exact .after (.presents (.stopUnbound _ _)) rfl
  · exact .other rfl

/-! ### Keys and knobs (R75 to R89) -/

theorem StoreKept.routeTest (s : State) (sd : Side) (k : EventKey) (d : EventKind) : StoreKept s (s.routeTest sd k d) :=
  (StoreKept.presents (.offerRoom s (keyNotice sd k d true))).trans (.other rfl)

theorem StoreKept.wakeKey (s : State) (sd : Side) (k : Key) : StoreKept s (s.wakeKey sd k) :=
  (StoreKept.sessionEvent s sd).trans (.other rfl)

theorem StoreKept.answer (s : State) (p : Prompt) (k : Key) (hold : Bool) : StoreKept s (s.answer p k hold) := by
  have ha : Presents s (((s.stopSpan p.slot).onPrompt p.slot acknowledge).dropReplay p.side p.slot) :=
    ((Presents.stopSpan s p.slot).trans (.onPrompt _ _ acknowledge fun _ => rfl)).trans (.dropReplay _ p.side p.slot)
  unfold State.answer
  split
  · exact .closePrompt s _ _
  · exact .closePrompt s _ _
  · exact .presents (ha.trans ((Presents.offer _ p.owner _).trans (.settle _)))
  · exact .presents (ha.trans ((Presents.offer _ p.owner _).trans (.settle _)))
  all_goals exact .refl s

theorem StoreKept.routeKey (s : State) (sd : Side) (k : Key) (hold : Bool) : StoreKept s (s.routeKey sd k hold) := by
  unfold State.routeKey
  split
  · split
    · exact (StoreKept.presents (.requestTone s 14 sd .click)).trans (.answer _ _ _ _)
    · exact .presents (.requestTone s 15 sd .reject)
  · exact .presents ((Presents.requestTone s 14 sd .click).trans (.offerKey _ sd _ _))

theorem StoreKept.acceptKey (s : State) (sd : Side) (k : Key) (hold : Bool) : StoreKept s (s.acceptKey sd k hold) := by
  cases k with
  | help => exact .presents ((Presents.requestTone s 14 sd .click).trans (.helpRequest _ sd))
  | speech => exact (StoreKept.presents (.requestTone s 14 sd .click)).trans (.putMode _ sd _)
  | start | stop | option | yes | no => exact .routeKey s sd _ hold

theorem StoreKept.takeKey (s : State) (sd : Side) (k : Key) (hold : Bool) : StoreKept s (s.takeKey sd k hold) := by
  unfold State.takeKey
  split
  · exact .routeTest s sd _ _
  · split
    · exact .wakeKey s sd k
    · exact (StoreKept.sessionEvent s sd).trans (.acceptKey _ sd k hold)

theorem StoreKept.takeMake (s : State) (sd : Side) (k : Key) : StoreKept s (s.takeMake sd k) := by
  unfold State.takeMake
  split
  · exact .refl s
  · split
    · exact .wakeKey s sd k
    · exact .refl s

theorem StoreKept.confirmMake (s : State) (sd : Side) (k : Key) : StoreKept s (s.confirmMake sd k) := by
  unfold State.confirmMake
  split
  · exact .other rfl
  · split
    · exact .after (.takeMake (s.onKey sd k madeKey) sd k) rfl
    all_goals exact .refl s

theorem StoreKept.pressKey (s : State) (sd : Side) (k : Key) : StoreKept s (s.pressKey sd k) := by
  unfold State.pressKey
  split
  · exact .other rfl
  · split
    · split
      · exact .refl s
      · exact .after (.takeKey (s.onKey sd k restedKey) sd k false) rfl
    all_goals exact .refl s

theorem StoreKept.holdKey (s : State) (sd : Side) (k : Key) : StoreKept s (s.holdKey sd k) := by
  unfold State.holdKey
  split
  · split
    · exact .refl s
    · exact .after (.takeKey (s.spend sd k) sd k true) rfl
  all_goals exact .refl s

theorem StoreKept.confirmBreak (s : State) (sd : Side) (k : Key) : StoreKept s (s.confirmBreak sd k) := by
  unfold State.confirmBreak
  split
  · exact .other rfl
  · split
    · split
      · exact .other rfl
      · exact .pressKey s sd k
    all_goals exact .refl s

theorem StoreKept.takeDetent (s : State) (sd : Side) (d : EventKind) : StoreKept s (s.takeDetent sd d) := by
  unfold State.takeDetent
  split
  · exact .routeTest s sd _ _
  · split
    · exact .sessionEvent s sd
    · exact (StoreKept.sessionEvent s sd).trans (.presents (.offerKey _ sd _ _))

theorem StoreKept.moveKnob (s : State) (sd : Side) (p q : Bool) : StoreKept s (s.moveKnob sd p q) := by
  unfold State.moveKnob
  split
  · dsimp only
    split
    · exact .after (.takeDetent (s.onKnob sd fun _ => ((s.ksc.sides.get sd).knob.moved p q).1) sd _) rfl
    · exact .other rfl
  · exact .other rfl

theorem StoreKept.moveContact (s : State) (sd : Side) (k : Key) (closed : Bool) : StoreKept s (s.moveContact sd k closed) := by
  unfold State.moveContact
  split <;> exact .other rfl

/-! ### Timers (R17 to R20, R37, R56, R128 to R139, R152, R185) -/

theorem StoreKept.expire (s : State) (n : Nat) : StoreKept s (s.expire n) := by
  unfold State.expire
  split
  · exact .other rfl
  · split
    · split
      · exact (StoreKept.closePrompt s n _).trans (.other rfl)
      · exact .refl s
    · exact .refl s

theorem StoreKept.dwellOut (s : State) (n : Nat) : StoreKept s (s.dwellOut n) := by
  unfold State.dwellOut
  split
  · exact .other rfl
  · split
    · split
      · exact (StoreKept.closePrompt s n _).trans (.other rfl)
      · exact .refl s
    · exact .refl s

theorem StoreKept.repeatFalls (s : State) (n : Nat) : StoreKept s (s.repeatFalls n) := by
  unfold State.repeatFalls
  split
  · exact .other rfl
  · split
    · split
      · exact .presents ((Presents.onPrompt s n fallDue fun _ => rfl).trans (.settle _))
      · exact .refl s
    · exact .refl s

theorem StoreKept.idleOut (s : State) (sd : Side) : StoreKept s (s.idleOut sd) := by
  unfold State.idleOut
  split
  · exact .other rfl
  · split
    · exact .endSession s sd _
    · exact .refl s

theorem StoreKept.unboundOut (s : State) (sd : Side) : StoreKept s (s.unboundOut sd) := by
  unfold State.unboundOut
  split
  · exact .other rfl
  · split
    · exact .presents (.fallbackFalls s sd)
    · exact .refl s

theorem StoreKept.recoveryEnd (s : State) : StoreKept s s.recoveryEnd := by
  unfold State.recoveryEnd
  split
  · split
    · exact .presents ((Presents.offerEach _ _ _).trans ((silence_presents s).trans (.settle _)))
    · exact .after (.presents (.settle _)) rfl
  · exact .refl s

theorem StoreKept.noteEnd (s : State) : StoreKept s s.noteEnd := by
  unfold State.noteEnd
  split <;> exact .other rfl

theorem StoreKept.darken (s : State) : StoreKept s s.darken := by
  unfold State.darken
  split
  · exact .other rfl
  · split <;> exact .other rfl

theorem StoreKept.settlingOut (s : State) : StoreKept s s.settlingOut := by
  unfold State.settlingOut State.settled
  split
  · dsimp only
    split <;> exact .other rfl
  · exact .refl s

theorem StoreKept.endKeyCheck (s : State) : StoreKept s s.endKeyCheck := by
  unfold State.endKeyCheck
  split
  · exact .other rfl
  · split
    · exact .finishTest s _ _ _ _
    · exact .refl s

/-! ### The end of the link ignore time (R171) -/

theorem StoreKept.unboundBegins (s : State) (sd : Side) : StoreKept s (s.unboundBegins sd) := by
  unfold State.unboundBegins
  split
  · exact .presents (.startUnbound s sd)
  · exact .refl s

theorem StoreKept.ignoreEnds (s : State) : StoreKept s s.ignoreEnds :=
  .after ((StoreKept.unboundBegins _ .lower).trans (.unboundBegins _ .upper)) rfl

end Sys2Proof.Machine
end

section
/-! No command stops the part or touches the queue (O3), and every step keeps the canonical form of the store and of the tables (O55). -/

namespace Sys2Proof.Machine

open Sys2Proof.Claims

/-! ### Requests on roles, prompts and sides (R7 to R27, R55 to R74, R164 to R169) -/

theorem StoreKept.bindRole (s : State) (p : Port) (b : Byte) : StoreKept s (s.bindRole p b).2 := by
  unfold State.bindRole
  split
  · exact .refl s
  · split
    · split <;> exact .refl s
    · split
      · exact .refl s
      · exact .bind s p _

theorem StoreKept.fetchNotice (s : State) (p : Port) : StoreKept s (s.fetchNotice p).2 := by
  unfold State.fetchNotice
  split <;> exact .other rfl

/-- A side request does what its block does on a side, or nothing. -/
theorem StoreKept.withSide {s : State} {f : Side → Reply × State} (h : ∀ sd, StoreKept s (f sd).2) (p : Port) (b : Byte) :
    StoreKept s (s.withSide p b f).2 := by
  unfold State.withSide
  split
  · exact .refl s
  · exact h _

theorem StoreKept.enter (s : State) (x : Prompt) (slot : Nat) : StoreKept s (s.enter x slot) := by
  unfold State.enter
  dsimp only
  refine .after (t := s.place x slot) (StoreKept.trans ?_ (.presents (.offerPrompt _ slot))) rfl
  split
  · exact .wakeForPrompt _ _
  · exact .refl _

theorem StoreKept.acceptPrompt (s : State) (x : Prompt) (old : Option Prompt) : StoreKept s (s.acceptPrompt x old).2 := by
  have ho : StoreKept s (match old with | some q => s.closeNoChoice q .replaced | none => s) := by
    cases old with
    | none => exact .refl s
    | some q => exact .closeNoChoice s q .replaced
  unfold State.acceptPrompt
  dsimp only
  split
  · exact .refl s
  · rename_i slot _
    refine (ho.trans (.enter _ x slot)).trans (.presents (Presents.trans ?_ (.settle _)))
    cases old with
    | none => exact .refl _
    | some q =>
      dsimp only
      split
      · exact .refl _
      · exact .chooseRegion _ _

theorem StoreKept.postPrompt (s : State) (p : Port) (b : PromptBody) : StoreKept s (s.postPrompt p b).2 := by
  refine .withSide (fun sd => ?_) p b.side
  split
  · exact .refl s
  · dsimp only
    split
    · exact .refl s
    · split
      · exact .refl s
      · exact .acceptPrompt s _ _

theorem StoreKept.withdrawPrompt (s : State) (p : Port) (t : Byte) : StoreKept s (s.withdrawPrompt p t).2 := by
  unfold State.withdrawPrompt
  split
  · exact .refl s
  · exact .closePrompt s _ _

theorem StoreKept.optWord (s : State) (x : Option Nat) : StoreKept s (s.optWord x).2 := by
  cases x <;> exact .other rfl

theorem StoreKept.queryPrompt (s : State) (p : Port) (t : Byte) : StoreKept s (s.queryPrompt p t).2 := by
  unfold State.queryPrompt
  split
  · exact .refl s
  · exact (StoreKept.optWord s _).trans (.optWord _ _)

theorem StoreKept.summary (s : State) (n : Nat) : StoreKept s (s.summary n).2 := by
  unfold State.summary
  split <;> exact .other rfl

theorem StoreKept.listPrompts (s : State) (n : Byte) : StoreKept s (s.listPrompts n).2 := by
  unfold State.listPrompts
  split
  · exact (StoreKept.summary s _).trans (.summary _ _)
  · exact .refl s

theorem StoreKept.stopSession (s : State) (p : Port) (b : Byte) : StoreKept s (s.stopSession p b).2 := by
  refine .withSide (fun sd => ?_) p b
  split
  · exact .after (.endSession (s.overtakeIdle sd) sd _) rfl
  · exact .refl s

theorem StoreKept.setLanguage (s : State) (p : Port) (b l : Byte) : StoreKept s (s.setLanguage p b l).2 := by
  refine .withSide (fun sd => ?_) p b
  split
  · exact .refl s
  · split
    · exact .putLanguage s sd _
    · exact .refl s

theorem StoreKept.setSpeechMode (s : State) (p : Port) (b m : Byte) : StoreKept s (s.setSpeechMode p b m).2 := by
  refine .withSide (fun sd => ?_) p b
  split
  · exact .refl s
  · split
    · exact .putMode s sd _
    · exact .refl s

theorem StoreKept.claimSide (s : State) (p : Port) (b : Byte) : StoreKept s (s.claimSide p b).2 := by
  refine .withSide (fun sd => ?_) p b
  dsimp only
  split
  · exact .after (t := s.putHolder sd p) (.presents (.holderChanged _ sd)) rfl
  · split
    · exact .other rfl
    · exact .refl s

theorem StoreKept.releaseSide (s : State) (p : Port) (b : Byte) : StoreKept s (s.releaseSide p b).2 := by
  refine .withSide (fun sd => ?_) p b
  split
  · exact .freeHold s sd
  · exact .refl s

theorem StoreKept.setCycle (s : State) (p : Port) (b pr ph : Byte) (n : Word16) (r : Byte) :
    StoreKept s (s.setCycle p b pr ph n r).2 := by
  refine .withSide (fun sd => ?_) p b
  split
  · exact .putCycle s sd _ _
  · exact .refl s

/-! ### Requests on the store and the library tables (R98 to R109, R138, R148, R150) -/

theorem StoreKept.takeWrite (s : State) (p : Port) (g o : Nat) (d : List Byte) : StoreKept s (s.takeWrite p g o d).2 := by
  unfold State.takeWrite
  split
  · exact .refl s
  · split
    · exact .other rfl
    · split
      · exact .refl s
      · split <;> exact .refl s

theorem StoreKept.writePage (s : State) (p : Port) (g o : Word16) (n : Byte) (d : List Byte) :
    StoreKept s (s.writePage p g o n d).2 := by
  unfold State.writePage
  split
  · exact .refl s
  · split
    · exact .refl s
    · exact .takeWrite s p _ _ d

theorem StoreKept.readPostError (s : State) (p : Port) : StoreKept s (s.readPostError p).2 := by
  unfold State.readPostError
  split <;> exact .other rfl

theorem StoreKept.setWindow (s : State) (t w f : Byte) (a b o : Word16) : StoreKept s (s.setWindow t w f a b o).2 := by
  unfold State.setWindow
  split
  · exact .refl s
  · split <;> exact .other rfl

theorem StoreKept.setPhrase (s : State) (n l f : Byte) (a : Word16) (b : Byte) : StoreKept s (s.setPhrase n l f a b).2 := by
  unfold State.setPhrase
  split
  · exact .refl s
  · split
    · exact .setEntry s _ _ _
    · exact .refl s

theorem StoreKept.setTone (s : State) (n c : Byte) (l : List (Byte × Byte)) : StoreKept s (s.setTone n c l).2 := by
  unfold State.setTone
  split
  · exact .setPattern s _ _
  · exact .refl s

theorem StoreKept.setGlyph (s : State) (c : Byte) (l : List Byte) : StoreKept s (s.setGlyph c l).2 := by
  unfold State.setGlyph
  split
  · exact .putGlyph s _ _
  · exact .refl s

theorem StoreKept.setSegmentMap (s : State) (l : List Byte) : StoreKept s (s.setSegmentMap l).2 := by
  unfold State.setSegmentMap
  split <;> exact .other rfl

/-! ### Requests of the room controller (R133, R175 to R185) -/

theorem StoreKept.setConfig (s : State) (b : ConfigBody) : StoreKept s (s.setConfig b).2 := by
  unfold State.setConfig
  split
  · exact .refl s
  · exact .after (t := configured s _) (.presents (putConfig_presents s _)) rfl

theorem StoreKept.lampTest (s : State) (l b : Byte) : StoreKept s (s.lampTest l b).2 := by
  unfold State.lampTest
  split <;> exact .other rfl

theorem StoreKept.startStoreSum (s : State) (a b : Nat) : StoreKept s (s.startStoreSum a b).2 := by
  unfold State.startStoreSum
  split <;> exact .other rfl

theorem StoreKept.startSpeechCheck (s : State) (a b : Nat) : StoreKept s (s.startSpeechCheck a b).2 := by
  unfold State.startSpeechCheck
  split
  · split
    · exact .finishTest s _ _ _ _
    · split
      · exact .finishTest s _ _ _ _
      · exact .other rfl
  · exact .refl s

theorem StoreKept.startKeyCheck (s : State) (a : Nat) : StoreKept s (s.startKeyCheck a).2 := by
  unfold State.startKeyCheck
  split <;> exact .other rfl

theorem StoreKept.selfTest (s : State) (t : Byte) (a b : Word16) : StoreKept s (s.selfTest t a b).2 := by
  unfold State.selfTest
  split
  · exact .refl s
  · exact .refl s
  · split
    · exact .refl s
    · exact .startStoreSum s _ _
    · exact .startSpeechCheck s _ _
    · exact .finishTest s _ _ _ _
    · exact .startKeyCheck s _

theorem StoreKept.readTestResult (s : State) : StoreKept s s.readTestResult.2 := by
  unfold State.readTestResult
  split <;> exact .other rfl

theorem StoreKept.startAuditioning (s : State) (n l : Byte) : StoreKept s (s.startAuditioning n l).2 := by
  unfold State.startAuditioning
  split
  · exact .refl s
  · split
    · exact (StoreKept.presents (.abortAudition s)).trans (.after (.presents (.settle _)) rfl)
    · exact .refl s

theorem StoreKept.restoreSpeech (s : State) : StoreKept s s.restoreSpeech := by
  unfold State.restoreSpeech
  dsimp only
  split
  · exact .after (.presents ((Presents.offerEach _ _ _).trans (.settle _))) rfl
  · exact .other rfl

/-! ### Requests (R161, R162) -/

/-- Whatever the request, its block leaves the queue alone and keeps the canonical forms. -/
theorem StoreKept.carryOut (s : State) (p : Port) (r : Request) : StoreKept s (s.carryOut p r).2 := by
  cases r with
  | bindRole b => exact .bindRole s p b
  | unbindRole => exact .unbindRole s p
  | clientReset => exact .clientReset s p
  | readIdentity | readConfig => exact .refl s
  | fetchNotice => exact .fetchNotice s p
  | setAttentionMask | enterService => exact .other rfl
  | postPrompt b => exact .postPrompt s p b
  | withdrawPrompt t => exact .withdrawPrompt s p t
  | queryPrompt t => exact .queryPrompt s p t
  | listPrompts n => exact .listPrompts s n
  | startSession b => exact .withSide (fun sd => .sessionEvent s sd) p b
  | endSession b => exact .stopSession s p b
  | setLanguage b l => exact .setLanguage s p b l
  | setSpeechMode b m => exact .setSpeechMode s p b m
  | claimSide b => exact .claimSide s p b
  | releaseSide b => exact .releaseSide s p b
  | setCycle b pr ph n r => exact .setCycle s p b pr ph n r
  | readCycle b => exact .other (congrArg _ (readCycle_unchanged s b))
  | writePage g o n d => exact .writePage s p g o n d
  | readPage g o n => exact .other (congrArg _ (readPage_unchanged s p g o n))
  | readPostError => exact .readPostError s p
  | setWindow t w f a b o => exact .setWindow s t w f a b o
  | setPhrase n l f a b => exact .setPhrase s n l f a b
  | readPhrase n l => exact .other (congrArg _ (readPhrase_unchanged s n l))
  | setConfig b => exact .setConfig s b
  | setTone n c l => exact .setTone s n c l
  | setGlyph c l => exact .setGlyph s c l
  | setSegmentMap l => exact .setSegmentMap s l
  | leaveService => exact .leaveService s
  | lampTest l b => exact .lampTest s l b
  | selfTest t a b => exact .selfTest s t a b
  | readTestResult => exact .readTestResult s
  | audition n l => exact .startAuditioning s n l
  | restoreSpeech => exact .restoreSpeech s

theorem StoreKept.reply (s : State) (p : Port) (c q : Byte) (r : Reply) : StoreKept s (s.reply p c q r) := by
  cases r <;> exact .other rfl

theorem StoreKept.replyWork (s : State) (p : Port) (r : Reply) : StoreKept s (s.replyWork p r) := by
  unfold State.replyWork
  split
  · exact .reply s p _ _ r
  · exact .refl s

theorem StoreKept.takeRequest (s : State) (p : Port) (c q : Byte) (r : Option Request) : StoreKept s (s.takeRequest p c q r) := by
  unfold State.takeRequest
  split
  · exact .other rfl
  · split
    · exact .other rfl
    · split
      · exact .other rfl
      · split
        · exact (StoreKept.carryOut s p _).trans (.reply _ p c q _)
        · exact .other rfl

theorem StoreKept.requestArrives (s : State) (p : Port) (q : Byte) (r : Request) : StoreKept s (s.requestArrives p q r) := by
  unfold State.requestArrives
  split
  · exact .refl s
  · exact .after (.takeRequest (s.receiver p .hunt) p _ q _) rfl

theorem StoreKept.frameError (s : State) (p : Port) : StoreKept s (s.frameError p) := .other rfl

theorem StoreKept.takeFrame (s : State) (p : Port) (l : List Byte) (c : Word16) : StoreKept s (s.takeFrame p l c) := by
  unfold State.takeFrame
  split
  · split
    · exact .after (.takeRequest (s.receiver p .hunt) p _ _ _) rfl
    · exact .frameError s p
  · exact .frameError s p

theorem StoreKept.frameArrives (s : State) (p : Port) (l : List Byte) (c : Word16) : StoreKept s (s.frameArrives p l c) := by
  unfold State.frameArrives
  split
  · exact .refl s
  · split
    · exact .takeFrame s p l c
    · exact .frameError s p

theorem StoreKept.takeByte (s : State) (p : Port) (b : Byte) (e : Bool) : StoreKept s (s.takeByte p b e) := by
  unfold State.takeByte
  split
  · exact .refl s
  · split <;> exact .other rfl
  · split <;> exact .other rfl
  · split <;> exact .other rfl
  · split <;> exact .other rfl
  · split
    · exact .takeFrame s p _ _
    · exact .frameError s p

theorem StoreKept.gapExpires (s : State) (p : Port) : StoreKept s (s.gapExpires p) := by
  unfold State.gapExpires
  split
  · exact .other rfl
  · split <;> exact .other rfl

/-! ### The store bus (R107, R110) -/

theorem StoreKept.bufferEmptied (s : State) (p : Port) : StoreKept s (s.bufferEmptied p) := by
  unfold State.bufferEmptied
  split
  · exact (StoreKept.takeWrite s p _ _ _).trans (.reply _ p _ _ _)
  · exact .reply s p _ _ _
  · exact .refl s

theorem StoreKept.failPosted (s : State) (p : Port) (w : Posted) (c : PostCause) : StoreKept s (s.failPosted p w c) :=
  .after ((StoreKept.presents (.offer _ p _)).trans (.bufferEmptied _ p)) rfl

theorem StoreKept.grantPosted (s : State) (p : Port) (w : Posted) : StoreKept s (s.grantPosted p w) := by
  unfold State.grantPosted
  split
  · exact .failPosted s p w _
  · split
    · exact .failPosted s p w _
    · dsimp only
      split <;> exact .other rfl

theorem StoreKept.grantClient (s : State) (p : Port) (c : PortClaim) : StoreKept s (s.grantClient p c) := by
  cases c with
  | posted w => exact .after (.grantPosted (s.served p) p w) rfl
  | read | write => exact .other rfl

theorem StoreKept.grantDisplay (s : State) (sd : Side) : StoreKept s (s.grantDisplay sd) := by
  unfold State.grantDisplay
  split <;> exact .other rfl

theorem StoreKept.grantTest (s : State) (g n : Nat) : StoreKept s (s.grantTest g n) := by
  unfold State.grantTest
  dsimp only
  split
  · exact .after (.replyWork (s.beginTransfer (.test g n false)) _ _) rfl
  · exact .other rfl

theorem StoreKept.arbitrate (s : State) : StoreKept s s.arbitrate := by
  unfold State.arbitrate
  split
  · exact .other rfl
  · split
    · exact .grantDisplay s _
    · split
      · exact .grantClient s _ _
      · split
        · exact .grantTest s _ _
        · exact .refl s

theorem StoreKept.grantLoop : ∀ (n : Nat) (s : State), StoreKept s (State.grantLoop n s)
  | 0, s => .refl s
  | n + 1, s => by
    unfold State.grantLoop
    split
    · exact .refl s
    · exact ((StoreKept.arbitrate s).trans (.presents (.settle _))).trans (StoreKept.grantLoop n _)

theorem StoreKept.testRead (s : State) (l : List Byte) : StoreKept s (s.testRead l) := by
  unfold State.testRead
  split
  · dsimp only
    split
    · exact .finishTest s _ _ _ _
    · exact .other rfl
  · dsimp only
    split
    · exact .finishTest s _ _ _ _
    · exact .other rfl
  · exact .refl s

theorem StoreKept.storeFetched (s : State) (g n : Nat) (r : Resolution) (l : List Byte) : StoreKept s (s.storeFetched g n r l) := by
  unfold State.storeFetched
  split
  · exact .refl s
  · split
    · exact .other rfl
    · split <;> exact .other rfl

theorem StoreKept.textRead (s : State) (sd : Side) (l : List Byte) : StoreKept s (s.textRead sd l) := by
  unfold State.textRead
  split
  · split <;> exact .presents (.continueRender s sd _ _ _)
  · exact .refl s

/-- Of the transfers only the two writes touch the store (R104, R107). -/
theorem StoreKept.finishTransfer (s : State) (t : Transfer) : StoreKept s (s.finishTransfer t) := by
  cases t with
  | speech g n r => exact .storeFetched s g n r _
  | display sd g dropped =>
    cases dropped
    · exact .textRead s sd _
    · exact .refl s
  | read p g o n => exact .replyWork s p _
  | write p g o d => exact (StoreKept.performWrite s g o d).trans (.replyWork _ p _)
  | posted p g o d =>
    exact (StoreKept.performWrite s g o d).trans (.after (.bufferEmptied ((s.performWrite g o d).dropPosted p) p) rfl)
  | test g n dropped =>
    cases dropped
    · exact .testRead s _
    · exact .refl s

theorem StoreKept.transferEnd (s : State) : StoreKept s s.transferEnd := by
  unfold State.transferEnd
  split
  · exact .refl s
  · rename_i t _
    exact .after ((StoreKept.finishTransfer { s with psc := { s.psc with transfer := none } } t).trans (.presents (.settle _))) rfl

/-! ### Steps -/

/-- Every command answers a next state, leaves the queue alone and keeps the canonical forms. -/
theorem exec_storeKept (c : Instr) (s : State) : ∃ t, exec c s = .next t ∧ StoreKept s t := by
  cases hr : requestOf c with
  | some x =>
    obtain ⟨p, q, r⟩ := x
    exact ⟨_, exec_requestOf hr s, .requestArrives s p q r⟩
  | none =>
    cases c with
    | powerOnReset => exact ⟨_, rfl, .powerOnReset s⟩
    | externalReset => exact ⟨_, rfl, .externalReset s⟩
    | ignoreTimeEnd =>
      refine ⟨_, rfl, ?_⟩
      split
      · exact .ignoreEnds s
      · exact .refl s
    | requestFrame p l crc => exact ⟨_, rfl, .frameArrives s p l crc⟩
    | byteTaken p b e => exact ⟨_, rfl, .takeByte s p b e⟩
    | gapTimerExpiry p => exact ⟨_, rfl, .gapExpires s p⟩
    | frameTransmitted | displayRefresh | blinkHalf => exact ⟨_, rfl, .other rfl⟩
    | keyContactChange sd k b => exact ⟨_, rfl, .moveContact s sd k b⟩
    | makeConfirmed sd k => exact ⟨_, rfl, .confirmMake s sd k⟩
    | breakConfirmed sd k => exact ⟨_, rfl, .confirmBreak s sd k⟩
    | press sd k => exact ⟨_, rfl, .pressKey s sd k⟩
    | hold sd k => exact ⟨_, rfl, .holdKey s sd k⟩
    | knobPhaseChange sd p q => exact ⟨_, rfl, .moveKnob s sd p q⟩
    | promptExpiry n => exact ⟨_, rfl, .expire s n⟩
    | dwellExpiry n => exact ⟨_, rfl, .dwellOut s n⟩
    | repeatDue n => exact ⟨_, rfl, .repeatFalls s n⟩
    | idleExpiry sd => exact ⟨_, rfl, .idleOut s sd⟩
    | holdLapse sd => exact ⟨_, rfl, .lapseOut s sd⟩
    | countdownFall sd => exact ⟨_, rfl, .secondOut s sd⟩
    | fallbackDue sd => exact ⟨_, rfl, .unboundOut s sd⟩
    | panelOff => exact ⟨_, rfl, .darken s⟩
    | settlingEnd => exact ⟨_, rfl, .settlingOut s⟩
    | recoveryEnd => exact ⟨_, rfl, .recoveryEnd s⟩
    | toneNoteEnd => exact ⟨_, rfl, .noteEnd s⟩
    | busGrant => exact ⟨_, rfl, .grantLoop _ s⟩
    | transferEnd => exact ⟨_, rfl, .transferEnd s⟩
    | blockEnd => exact ⟨_, rfl, .presents (.blockEnd s)⟩
    | pausePieceEnd => exact ⟨_, rfl, .presents (.pieceEnd s)⟩
    | keyCheckEnd => exact ⟨_, rfl, .endKeyCheck s⟩
    | _ => cases hr

/-- Settles O3: what a command does includes an outcome and the queue left as it was. -/
theorem commandsNeverStop : Obligations.CommandsNeverStop := fun c s =>
  let ⟨t, ht, hk⟩ := exec_storeKept c s
  ⟨t, ht, hk.pending⟩

/-- Settles O55: the time base writes no table, and a command keeps their forms. -/
theorem stepKeepsStoreCanonical : Obligations.StepKeepsStoreCanonical := by
  intro s t hs h
  cases hq : s.pending with
  | nil =>
    unfold step at h
    rw [hq] at h
    cases h
    exact hs
  | cons c rest =>
    rw [stepTakesFrontCommand c rest s hq] at h
    obtain ⟨u, hu, hk⟩ := exec_storeKept c (s.withQueue rest)
    cases hu.symm.trans h
    exact hk.canonical hs

end Sys2Proof.Machine
end
